-- ==== Sys2Proof/Word.lean ====
section
/-! DEFINITION. The word types of the machine: 24-bit words, 16-bit addresses, 48-bit long words and
56-bit accumulator values (spec 00_scope.md R10, 10_state.md R30 and R31). -/

namespace Sys2Proof

/-- A 24-bit word: an instruction word or a data word (R10). -/
abbrev Word := BitVec 24

/-- A 16-bit word address, in X, Y or P space, and every 16-bit register (R10, R101). -/
abbrev Addr := BitVec 16

/-- A 48-bit long word, for example X = X1:X0 (R31). -/
abbrev Long := BitVec 48

/-- A 56-bit accumulator value A2:A1:A0 (R16, R33). -/
abbrev AccVal := BitVec 56

end Sys2Proof
end

