-- ==== Sys2Proof/Syntax.lean ====
section
/-! DEFINITION. The abstract syntax of the instruction set: operand types and `Instr`, one constructor
per row of spec/opcode_table.json (spec 30_encoding.md). Encodings never reach the machine: every field is
already a name here, and reserved codes have no value. -/

namespace Sys2Proof

/-- Accumulator selector, field `d` of Table A-15 (R160). -/
inductive Acc where
  | a | b
deriving DecidableEq, Repr

/-- The 24-bit data-ALU source registers, field `JJ` (R187, R202). -/
inductive WReg where
  | x0 | y0 | x1 | y1
deriving DecidableEq, Repr

/-- The 48-bit data-ALU sources X = X1:X0 and Y = Y1:Y0, field `J` (R31, R187). -/
inductive LReg where
  | x | y
deriving DecidableEq, Repr

/-- The multiplier input pairs, field `QQQ` of Table A-28 (R186). -/
inductive MulPair where
  | x0x0 | y0y0 | x1x0 | y1y0 | x0y1 | y0x0 | x1y0 | y1x1
deriving DecidableEq, Repr

/-- The twelve data-ALU registers a move can name, four-bit codes of Table A-19(a) (R59). -/
inductive DReg where
  | x0 | x1 | y0 | y1 | a0 | b0 | a2 | b2 | a1 | b1 | a | b
deriving DecidableEq, Repr

/-- The seven program-controller registers, field `GGG` of Table A-18 (R55). -/
inductive CtlReg where
  | sr | omr | sp | ssh | ssl | la | lc
deriving DecidableEq, Repr

/-- The registers of a five-bit register field, Table A-20 (R59). -/
inductive Reg5 where
  | d (x : DReg)
  | r (k : BitVec 3)
  | n (k : BitVec 3)
deriving DecidableEq, Repr

/-- The 43 registers of a six-bit register field, Table A-21 (R57). -/
inductive Reg where
  | d (x : DReg)
  | r (k : BitVec 3)
  | n (k : BitVec 3)
  | m (k : BitVec 3)
  | c (x : CtlReg)
deriving DecidableEq, Repr

/-- A five-bit register as a six-bit one (R59). -/
def Reg5.toReg : Reg5 → Reg
  | .d x => .d x
  | .r k => .r k
  | .n k => .n k

/-- The registers that MOVEC names by `1ddddd`: Mn and the program-controller registers (R199). -/
inductive CReg where
  | m (k : BitVec 3)
  | c (x : CtlReg)
deriving DecidableEq, Repr

/-- A MOVEC control register as a six-bit register (R199). -/
def CReg.toReg : CReg → Reg
  | .m k => .m k
  | .c x => .c x

/-- LUA's destination, field `dddd` (R200). -/
inductive RNReg where
  | r (k : BitVec 3)
  | n (k : BitVec 3)
deriving DecidableEq, Repr

/-- The registers that pair with X memory, field `ee` (R161). -/
inductive XReg where
  | x0 | x1 | a | b
deriving DecidableEq, Repr

/-- The registers that pair with Y memory, field `ff` (R161). -/
inductive YReg where
  | y0 | y1 | a | b
deriving DecidableEq, Repr

/-- An XDB register as a data-ALU register. -/
def XReg.toDReg : XReg → DReg
  | .x0 => .x0
  | .x1 => .x1
  | .a => .a
  | .b => .b

/-- A YDB register as a data-ALU register. -/
def YReg.toDReg : YReg → DReg
  | .y0 => .y0
  | .y1 => .y1
  | .a => .a
  | .b => .b

/-- Field `e` of Table A-15: X0 or X1 (R160). -/
inductive XSel where
  | x0 | x1
deriving DecidableEq, Repr

/-- Field `f` of Table A-15: Y0 or Y1 (R160). -/
inductive YSel where
  | y0 | y1
deriving DecidableEq, Repr

/-- Field `e` as a data-ALU register. -/
def XSel.toDReg : XSel → DReg
  | .x0 => .x0
  | .x1 => .x1

/-- Field `f` as a data-ALU register. -/
def YSel.toDReg : YSel → DReg
  | .y0 => .y0
  | .y1 => .y1

/-- An accumulator as a data-ALU register. -/
def Acc.toDReg : Acc → DReg
  | .a => .a
  | .b => .b

/-- The operands of an L: move, field `LLL` of Table A-18 (R162, R374). -/
inductive LOp where
  | a10 | b10 | x | y | a | b | ab | ba
deriving DecidableEq, Repr

/-- A data memory space, bit `S`: 0 = X, 1 = Y (R164). -/
inductive DSpace where
  | x | y
deriving DecidableEq, Repr

/-- A physical memory space (R100). -/
inductive Space where
  | x | y | p
deriving DecidableEq, Repr

/-- A data space as a memory space. -/
def DSpace.toSpace : DSpace → Space
  | .x => .x
  | .y => .y

/-- The seven address-register-indirect modes, field `MMM` of Table A-26 (R120). -/
inductive AguMode where
  | postSubN | postAddN | postDec | postInc | noUpdate | indexed | preDec
deriving DecidableEq, Repr

/-- The four update modes of LUA and of the U move, field `MM` (R129). -/
inductive UMode where
  | subN | addN | dec | inc
deriving DecidableEq, Repr

/-- The four modes of an X:Y: double move, fields `MM` and `mm` (R128). -/
inductive XYMode where
  | noUpdate | addN | dec | inc
deriving DecidableEq, Repr

/-- An address-register-indirect operand: MMMRRR with MMM other than 110 (R120). -/
structure Ind where
  mode : AguMode
  reg : BitVec 3
deriving DecidableEq, Repr

/-- An effective address: indirect, or the absolute address of the extension word, whose upper eight bits
are ignored (R101, R120). -/
inductive Ea where
  | ind (i : Ind)
  | abs (addr : Addr)
deriving DecidableEq, Repr

/-- A source operand of an `X:ea,D` form: memory at an effective address, or the immediate datum in the
extension word (R120, R122). -/
inductive EaImm where
  | mem (ea : Ea)
  | imm (v : Word)
deriving DecidableEq, Repr

/-- A transfer between a register and an effective address: `W` = 1 writes the register, `W` = 0 writes
memory, where immediate data is not offered (R122, R164). -/
inductive Xfer where
  | toReg (src : EaImm)
  | toMem (dst : Ea)
deriving DecidableEq, Repr

/-- Bit `W` of Table A-22 (R164): `toReg` is W = 1, `toMem` is W = 0. -/
inductive Dir where
  | toReg | toMem
deriving DecidableEq, Repr

/-- The sixteen conditions (R74). -/
inductive Cond where
  | cc | ge | ne | pl | nn | ec | lc | gt | cs | lt | eq | mi | nr | es | ls | le
deriving DecidableEq, Repr

/-- The source S1 of Tcc, field `JJJ` (R201): the other accumulator or a 24-bit register. -/
inductive TSrc where
  | other
  | word (w : WReg)
deriving DecidableEq, Repr

/-- The destination of ANDI and ORI, field `EE` of Table A-24 (R164). -/
inductive ImmDest where
  | mr | ccr | omr
deriving DecidableEq, Repr

/-- The data bus move field of a class P word: the 15 move rows of the opcode table (R170 to R184). -/
inductive ParMove where
  /-- No parallel move (R177, R368). -/
  | none
  /-- I: immediate short (R174, R369). -/
  | imm (dst : Reg5) (i : BitVec 8)
  /-- R: register to register (R175, R370). -/
  | reg (src dst : Reg5)
  /-- U: address register update (R176, R371). -/
  | upd (mm : UMode) (r : BitVec 3)
  /-- X: effective address (R171, R372). -/
  | xEa (x : Xfer) (r : Reg5)
  /-- X: absolute short (R171, R372). -/
  | xAa (w : Dir) (aa : BitVec 6) (r : Reg5)
  /-- Y: effective address (R172, R373). -/
  | yEa (x : Xfer) (r : Reg5)
  /-- Y: absolute short (R172, R373). -/
  | yAa (w : Dir) (aa : BitVec 6) (r : Reg5)
  /-- L: effective address (R173, R374). -/
  | lEa (w : Dir) (ea : Ea) (l : LOp)
  /-- L: absolute short (R173, R374). -/
  | lAa (w : Dir) (aa : BitVec 6) (l : LOp)
  /-- X:R class I (R180, R375). -/
  | xr (ee : XReg) (x : Xfer) (d : Acc) (f : YSel)
  /-- R:Y class I (R179, R376). -/
  | ry (d : Acc) (e : XSel) (ff : YReg) (x : Xfer)
  /-- X:R class II (R182, R377). -/
  | xr2 (d : Acc) (ea : Ea)
  /-- R:Y class II (R181, R378). -/
  | ry2 (d : Acc) (ea : Ea)
  /-- X:Y: (R170, R379): the X side `wx ee mx rx` and the Y side `wy ff my ry`, where `ry` numbers the
  register inside the bank that `rx` is not in (R128). -/
  | xy (wx : Dir) (ee : XReg) (mx : XYMode) (rx : BitVec 3)
       (wy : Dir) (ff : YReg) (my : XYMode) (ry : BitVec 2)
deriving DecidableEq, Repr

/-- The instruction set: one constructor per row of spec/opcode_table.json, in the table's order. Row 81
(the MOVE operation code) together with a move field is one of the fifteen `move…` constructors (R417). -/
inductive Instr where
  -- Jumps (R190, R191)
  | jsccShort (k : Cond) (a : BitVec 12)
  | jccShort (k : Cond) (a : BitVec 12)
  | jsrShort (a : BitVec 12)
  | jmpShort (a : BitVec 12)
  | jsccEa (k : Cond) (ea : Ea)
  | jsrEa (ea : Ea)
  | jccEa (k : Cond) (ea : Ea)
  | jmpEa (ea : Ea)
  -- Bit-test jumps (R192): space, operand, bit number, target
  | jssetPp (s : DSpace) (pp : BitVec 6) (n : BitVec 5) (t : Addr)
  | jssetEa (s : DSpace) (i : Ind) (n : BitVec 5) (t : Addr)
  | jssetAa (s : DSpace) (aa : BitVec 6) (n : BitVec 5) (t : Addr)
  | jssetReg (r : Reg) (n : BitVec 5) (t : Addr)
  | jsclrPp (s : DSpace) (pp : BitVec 6) (n : BitVec 5) (t : Addr)
  | jsclrEa (s : DSpace) (i : Ind) (n : BitVec 5) (t : Addr)
  | jsclrAa (s : DSpace) (aa : BitVec 6) (n : BitVec 5) (t : Addr)
  | jsclrReg (r : Reg) (n : BitVec 5) (t : Addr)
  | jsetPp (s : DSpace) (pp : BitVec 6) (n : BitVec 5) (t : Addr)
  | jsetEa (s : DSpace) (i : Ind) (n : BitVec 5) (t : Addr)
  | jsetAa (s : DSpace) (aa : BitVec 6) (n : BitVec 5) (t : Addr)
  | jsetReg (r : Reg) (n : BitVec 5) (t : Addr)
  | jclrPp (s : DSpace) (pp : BitVec 6) (n : BitVec 5) (t : Addr)
  | jclrEa (s : DSpace) (i : Ind) (n : BitVec 5) (t : Addr)
  | jclrAa (s : DSpace) (aa : BitVec 6) (n : BitVec 5) (t : Addr)
  | jclrReg (r : Reg) (n : BitVec 5) (t : Addr)
  -- Bit manipulation (R193)
  | btstPp (s : DSpace) (pp : BitVec 6) (n : BitVec 5)
  | btstEa (s : DSpace) (ea : Ea) (n : BitVec 5)
  | btstAa (s : DSpace) (aa : BitVec 6) (n : BitVec 5)
  | btstReg (r : Reg) (n : BitVec 5)
  | bchgPp (s : DSpace) (pp : BitVec 6) (n : BitVec 5)
  | bchgEa (s : DSpace) (ea : Ea) (n : BitVec 5)
  | bchgAa (s : DSpace) (aa : BitVec 6) (n : BitVec 5)
  | bchgReg (r : Reg) (n : BitVec 5)
  | bsetPp (s : DSpace) (pp : BitVec 6) (n : BitVec 5)
  | bsetEa (s : DSpace) (ea : Ea) (n : BitVec 5)
  | bsetAa (s : DSpace) (aa : BitVec 6) (n : BitVec 5)
  | bsetReg (r : Reg) (n : BitVec 5)
  | bclrPp (s : DSpace) (pp : BitVec 6) (n : BitVec 5)
  | bclrEa (s : DSpace) (ea : Ea) (n : BitVec 5)
  | bclrAa (s : DSpace) (aa : BitVec 6) (n : BitVec 5)
  | bclrReg (r : Reg) (n : BitVec 5)
  -- Peripheral, program memory and control moves (R195, R196, R199)
  | movepEa (ps : DSpace) (pp : BitVec 6) (es : DSpace) (x : Xfer)
  | movepP (ps : DSpace) (pp : BitVec 6) (w : Dir) (ea : Ea)
  | movepReg (ps : DSpace) (pp : BitVec 6) (w : Dir) (r : Reg)
  | movemEa (w : Dir) (ea : Ea) (r : Reg)
  | movemAa (w : Dir) (aa : BitVec 6) (r : Reg)
  -- REP and DO (R197, R198)
  | repImm (count : BitVec 12)
  | repReg (r : Reg)
  | repEa (s : DSpace) (i : Ind)
  | repAa (s : DSpace) (aa : BitVec 6)
  | doImm (count : BitVec 12) (last : Addr)
  | doReg (r : Reg) (last : Addr)
  | doEa (s : DSpace) (i : Ind) (last : Addr)
  | doAa (s : DSpace) (aa : BitVec 6) (last : Addr)
  | movecEa (s : DSpace) (x : Xfer) (c : CReg)
  | movecAa (s : DSpace) (w : Dir) (aa : BitVec 6) (c : CReg)
  | movecReg (w : Dir) (r : Reg) (c : CReg)
  | movecImm (i : BitVec 8) (c : CReg)
  | lua (mm : UMode) (r : BitVec 3) (dst : RNReg)
  -- Tcc, NORM, DIV, multiply by a power of two (R201 to R203)
  | tcc (k : Cond) (src : TSrc) (d : Acc)
  | tccR (k : Cond) (src : TSrc) (d : Acc) (s2 d2 : BitVec 3)
  | norm (r : BitVec 3) (d : Acc)
  | divStep (src : WReg) (d : Acc)
  | macImm (neg : Bool) (qq : BitVec 2) (d : Acc) (sh : BitVec 5)
  | macrImm (neg : Bool) (qq : BitVec 2) (d : Acc) (sh : BitVec 5)
  | mpyImm (neg : Bool) (qq : BitVec 2) (d : Acc) (sh : BitVec 5)
  | mpyrImm (neg : Bool) (qq : BitVec 2) (d : Acc) (sh : BitVec 5)
  -- Top byte zero (R204)
  | debugcc (k : Cond)
  | debug
  | ori (i : BitVec 8) (d : ImmDest)
  | andi (i : BitVec 8) (d : ImmDest)
  | enddo
  | stop
  | wait
  | reset
  | rts
  | dec (d : Acc)
  | inc (d : Acc)
  | swi
  | illegal
  | rti
  | nop
  -- Class P, data-ALU operation with a parallel move (R186, R187)
  | tfrAcc (d : Acc) (mv : ParMove)
  | addr (d : Acc) (mv : ParMove)
  | tst (d : Acc) (mv : ParMove)
  | cmpAcc (d : Acc) (mv : ParMove)
  | subr (d : Acc) (mv : ParMove)
  | cmpmAcc (d : Acc) (mv : ParMove)
  | addAcc (d : Acc) (mv : ParMove)
  | rnd (d : Acc) (mv : ParMove)
  | addl (d : Acc) (mv : ParMove)
  | clr (d : Acc) (mv : ParMove)
  | subAcc (d : Acc) (mv : ParMove)
  | subl (d : Acc) (mv : ParMove)
  | notAcc (d : Acc) (mv : ParMove)
  | addLong (l : LReg) (d : Acc) (mv : ParMove)
  | adc (l : LReg) (d : Acc) (mv : ParMove)
  | subLong (l : LReg) (d : Acc) (mv : ParMove)
  | sbc (l : LReg) (d : Acc) (mv : ParMove)
  | asr (d : Acc) (mv : ParMove)
  | lsr (d : Acc) (mv : ParMove)
  | absAcc (d : Acc) (mv : ParMove)
  | ror (d : Acc) (mv : ParMove)
  | asl (d : Acc) (mv : ParMove)
  | lsl (d : Acc) (mv : ParMove)
  | neg (d : Acc) (mv : ParMove)
  | rol (d : Acc) (mv : ParMove)
  | addWord (w : WReg) (d : Acc) (mv : ParMove)
  | tfrWord (w : WReg) (d : Acc) (mv : ParMove)
  | orWord (w : WReg) (d : Acc) (mv : ParMove)
  | eorWord (w : WReg) (d : Acc) (mv : ParMove)
  | subWord (w : WReg) (d : Acc) (mv : ParMove)
  | cmpWord (w : WReg) (d : Acc) (mv : ParMove)
  | andWord (w : WReg) (d : Acc) (mv : ParMove)
  | cmpmWord (w : WReg) (d : Acc) (mv : ParMove)
  | mpy (neg : Bool) (q : MulPair) (d : Acc) (mv : ParMove)
  | mpyr (neg : Bool) (q : MulPair) (d : Acc) (mv : ParMove)
  | mac (neg : Bool) (q : MulPair) (d : Acc) (mv : ParMove)
  | macr (neg : Bool) (q : MulPair) (d : Acc) (mv : ParMove)
  -- Class P, operation code MOVE, one constructor per move row (R368 to R379, R417)
  | moveNone
  | moveImm (dst : Reg5) (i : BitVec 8)
  | moveReg (src dst : Reg5)
  | moveUpd (mm : UMode) (r : BitVec 3)
  | moveXEa (x : Xfer) (r : Reg5)
  | moveXAa (w : Dir) (aa : BitVec 6) (r : Reg5)
  | moveYEa (x : Xfer) (r : Reg5)
  | moveYAa (w : Dir) (aa : BitVec 6) (r : Reg5)
  | moveLEa (w : Dir) (ea : Ea) (l : LOp)
  | moveLAa (w : Dir) (aa : BitVec 6) (l : LOp)
  | moveXR (ee : XReg) (x : Xfer) (d : Acc) (f : YSel)
  | moveRY (d : Acc) (e : XSel) (ff : YReg) (x : Xfer)
  | moveXR2 (d : Acc) (ea : Ea)
  | moveRY2 (d : Acc) (ea : Ea)
  | moveXY (wx : Dir) (ee : XReg) (mx : XYMode) (rx : BitVec 3)
           (wy : Dir) (ff : YReg) (my : XYMode) (ry : BitVec 2)
deriving DecidableEq, Repr

/-- The parallel part of a class P instruction (R155): the accumulator its data-ALU operation writes (none
for MOVE, TST, CMP and CMPM, R362) and its move; `none` for a class N instruction. -/
def Instr.parallel? : Instr → Option (Option Acc × ParMove)
  | .tfrAcc d mv | .addr d mv | .subr d mv | .addAcc d mv | .rnd d mv | .addl d mv | .clr d mv
  | .subAcc d mv | .subl d mv | .notAcc d mv | .addLong _ d mv | .adc _ d mv | .subLong _ d mv
  | .sbc _ d mv | .asr d mv | .lsr d mv | .absAcc d mv | .ror d mv | .asl d mv | .lsl d mv
  | .neg d mv | .rol d mv | .addWord _ d mv | .tfrWord _ d mv | .orWord _ d mv | .eorWord _ d mv
  | .subWord _ d mv | .andWord _ d mv | .mpy _ _ d mv | .mpyr _ _ d mv | .mac _ _ d mv
  | .macr _ _ d mv => some (some d, mv)
  | .tst _ mv | .cmpAcc _ mv | .cmpmAcc _ mv | .cmpWord _ _ mv | .cmpmWord _ _ mv => some (none, mv)
  | .moveNone => some (none, .none)
  | .moveImm d i => some (none, .imm d i)
  | .moveReg s d => some (none, .reg s d)
  | .moveUpd mm r => some (none, .upd mm r)
  | .moveXEa x r => some (none, .xEa x r)
  | .moveXAa w aa r => some (none, .xAa w aa r)
  | .moveYEa x r => some (none, .yEa x r)
  | .moveYAa w aa r => some (none, .yAa w aa r)
  | .moveLEa w ea l => some (none, .lEa w ea l)
  | .moveLAa w aa l => some (none, .lAa w aa l)
  | .moveXR ee x d f => some (none, .xr ee x d f)
  | .moveRY d e ff x => some (none, .ry d e ff x)
  | .moveXR2 d ea => some (none, .xr2 d ea)
  | .moveRY2 d ea => some (none, .ry2 d ea)
  | .moveXY wx ee mx rx wy ff my ry => some (none, .xy wx ee mx rx wy ff my ry)
  | _ => none

end Sys2Proof
end

