-- ==== Sys2Proof/WellFormed.lean ====
section
/-! DEFINITION. Well-formedness: the static checks that the types of Syntax.lean do not already make, and
the names under which the decoder rejects a word. -/

namespace Sys2Proof

/-- Why a word is no instruction, or an instruction is ill formed. The spec refuses each of these
(30_encoding.md R210, 92_eei_decisions.md D15). Safe: the model stops where the source promises nothing. -/
inductive DecodeError where
  /-- The word matches no pattern (R210). -/
  | reservedEncoding
  /-- A reserved register code (10_state.md R57). -/
  | reservedRegister
  /-- A reserved addressing mode, or immediate or absolute data where it is not offered (R120, R122, R151). -/
  | reservedMode
  /-- A bit number from 24 to 31 (R165). -/
  | reservedBitNumber
  /-- `EE` = 11 in ANDI or ORI (R164). -/
  | reservedImmDest
  /-- A reserved data-ALU operation code (R189). -/
  | reservedAluOp
  /-- A reserved data bus move field (R178). -/
  | reservedMove
  /-- Two writes of one instruction to one register (45_parallel_moves.md R362, 20_memory.md R131). -/
  | duplicateDestination
  /-- `MOVEC SSH,SSH` (70_reset_and_hazards.md R574). -/
  | movecSshSsh
  /-- `DO SSH,xxxx` (R570). -/
  | doFromSsh
deriving DecidableEq, Repr

/-- The accumulator a data-ALU register is, or is a part of (R362). -/
def DReg.acc? : DReg → Option Acc
  | .a | .a0 | .a1 | .a2 => some .a
  | .b | .b0 | .b1 | .b2 => some .b
  | .x0 | .x1 | .y0 | .y1 => none

/-- Does writing this register write the accumulator or a part of it? -/
def DReg.touches (x : DReg) (d : Acc) : Bool := x.acc? == some d

/-- Does writing this register write the accumulator or a part of it? -/
def Reg5.touches (r : Reg5) (d : Acc) : Bool :=
  match r with
  | .d x => x.touches d
  | .r _ | .n _ => false

/-- Does loading this L: operand write the accumulator or a part of it? (R362, R374) -/
def LOp.touches : LOp → Acc → Bool
  | .a10, .a | .a, .a | .b10, .b | .b, .b => true
  | .ab, _ | .ba, _ => true
  | _, _ => false

/-- Does this transfer write its register? -/
def Xfer.loads : Xfer → Bool
  | .toReg _ => true
  | .toMem _ => false

/-- Does the move write this accumulator or a part of it? (R362 a) -/
def ParMove.touches (mv : ParMove) (d : Acc) : Bool :=
  match mv with
  | .none | .upd _ _ => false
  | .imm r _ | .reg _ r => r.touches d
  | .xEa x r | .yEa x r => x.loads && r.touches d
  | .xAa w _ r | .yAa w _ r => w == .toReg && r.touches d
  | .lEa w _ l | .lAa w _ l => w == .toReg && l.touches d
  | .xr ee x _ _ => x.loads && ee.toDReg.touches d
  | .ry _ _ ff x => x.loads && ff.toDReg.touches d
  | .xr2 d' _ | .ry2 d' _ => d' == d
  | .xy wx ee _ _ wy ff _ _ =>
    (wx == .toReg && ee.toDReg.touches d) || (wy == .toReg && ff.toDReg.touches d)

/-- Does the addressing mode update Rn while the register written is that Rn or, where the mode reads Nn,
that Nn? (20_memory.md R131) -/
def Ind.clashes (i : Ind) (dst : Reg) : Bool :=
  match i.mode with
  | .noUpdate | .indexed => false
  | .postInc | .postDec | .preDec => dst == .r i.reg
  | .postAddN | .postSubN => dst == .r i.reg || dst == .n i.reg

/-- `Ind.clashes` for an effective address. -/
def Ea.clashes (ea : Ea) (dst : Reg) : Bool :=
  match ea with
  | .ind i => i.clashes dst
  | .abs _ => false

/-- `Ind.clashes` for a transfer that writes its register. -/
def Xfer.clashes (x : Xfer) (dst : Reg) : Bool :=
  match x with
  | .toReg (.mem ea) => ea.clashes dst
  | .toReg (.imm _) | .toMem _ => false

/-- Two destinations of the move itself are the same register (R362 b and c). -/
def ParMove.selfClash : ParMove → Bool
  | .xEa x r | .yEa x r => x.clashes r.toReg
  | .xy .toReg ee _ _ .toReg ff _ _ => ee.toDReg == ff.toDReg
  | _ => false

/-- The check of a class P word: no register is written twice (R362). -/
def parallelCheck (dst : Option Acc) (mv : ParMove) : Option DecodeError :=
  if mv.selfClash || (match dst with | some d => mv.touches d | none => false)
  then some .duplicateDestination else none

/-- The check of a bit number: 0 to 23 (R165). -/
def bitCheck (n : BitVec 5) : Option DecodeError :=
  if n.toNat < 24 then none else some .reservedBitNumber

/-- What is wrong with an instruction, if anything. -/
def Instr.check (i : Instr) : Option DecodeError :=
  match i.parallel? with
  | some (dst, mv) => parallelCheck dst mv
  | none =>
    match i with
    | .jssetPp _ _ n _ | .jssetEa _ _ n _ | .jssetAa _ _ n _ | .jssetReg _ n _
    | .jsclrPp _ _ n _ | .jsclrEa _ _ n _ | .jsclrAa _ _ n _ | .jsclrReg _ n _
    | .jsetPp _ _ n _ | .jsetEa _ _ n _ | .jsetAa _ _ n _ | .jsetReg _ n _
    | .jclrPp _ _ n _ | .jclrEa _ _ n _ | .jclrAa _ _ n _ | .jclrReg _ n _
    | .btstPp _ _ n | .btstEa _ _ n | .btstAa _ _ n | .btstReg _ n
    | .bchgPp _ _ n | .bchgEa _ _ n | .bchgAa _ _ n | .bchgReg _ n
    | .bsetPp _ _ n | .bsetEa _ _ n | .bsetAa _ _ n | .bsetReg _ n
    | .bclrPp _ _ n | .bclrEa _ _ n | .bclrAa _ _ n | .bclrReg _ n => bitCheck n
    | .movemEa .toReg ea r => if ea.clashes r then some .duplicateDestination else none
    | .movecReg _ (.c .ssh) (.c .ssh) => some .movecSshSsh
    | .doReg (.c .ssh) _ => some .doFromSsh
    | _ => none

/-- The instruction passes every check. -/
abbrev Instr.wf (i : Instr) : Prop := i.check = none

end Sys2Proof
end

