-- ==== Sys2Proof/Decode.lean ====
section
/-! DEFINITION. Decoding and encoding of instruction words (spec 30_encoding.md). `decode` is total on any
two words (the second is the extension word, ignored where the instruction has none) and rejects by name;
`encode` writes the words of a well-formed instruction from the same tables. -/

namespace Sys2Proof

/-! ### Lengths -/

/-- Extension words of an effective address: the absolute address takes one (R151). -/
def Ea.extra : Ea → Nat
  | .ind _ => 0
  | .abs _ => 1

/-- Extension words of a source operand: the immediate datum takes one (R151). -/
def EaImm.extra : EaImm → Nat
  | .mem ea => ea.extra
  | .imm _ => 1

/-- Extension words of a transfer. -/
def Xfer.extra : Xfer → Nat
  | .toReg s => s.extra
  | .toMem d => d.extra

/-- Extension words of a move field (R152). -/
def ParMove.extra : ParMove → Nat
  | .xEa x _ | .yEa x _ | .xr _ x _ _ | .ry _ _ _ x => x.extra
  | .lEa _ ea _ | .xr2 _ ea | .ry2 _ ea => ea.extra
  | _ => 0

/-- Length in words, 1 or 2 (R150, R151). -/
def Instr.words (i : Instr) : Nat :=
  match i.parallel? with
  | some (_, mv) => 1 + mv.extra
  | none =>
    match i with
    | .jsccEa _ ea | .jsrEa ea | .jccEa _ ea | .jmpEa ea | .btstEa _ ea _ | .bchgEa _ ea _
    | .bsetEa _ ea _ | .bclrEa _ ea _ | .movepP _ _ _ ea | .movemEa _ ea _ => 1 + ea.extra
    | .movepEa _ _ _ x | .movecEa _ x _ => 1 + x.extra
    | .jssetPp .. | .jssetEa .. | .jssetAa .. | .jssetReg .. | .jsclrPp .. | .jsclrEa .. | .jsclrAa ..
    | .jsclrReg .. | .jsetPp .. | .jsetEa .. | .jsetAa .. | .jsetReg .. | .jclrPp .. | .jclrEa ..
    | .jclrAa .. | .jclrReg .. | .doImm .. | .doReg .. | .doEa .. | .doAa .. => 2
    | _ => 1

/-! ### Bytes of a word -/

/-- The word whose bytes are bits 23:16, 15:8 and 7:0. -/
def join24 (h m l : BitVec 8) : Word := BitVec.ofNat 24 (h.toNat * 65536 + m.toNat * 256 + l.toNat)

/-- Bits 23:16. -/
def hi8 (w : Word) : BitVec 8 := BitVec.ofNat 8 (w.toNat / 65536)

/-- Bits 15:8. -/
def mid8 (w : Word) : BitVec 8 := BitVec.ofNat 8 (w.toNat / 256)

/-- Bits 7:0. -/
def lo8 (w : Word) : BitVec 8 := BitVec.ofNat 8 w.toNat

/-- `n` bits of a byte from bit `lo` up. -/
def bits (b : BitVec 8) (lo n : Nat) : BitVec n := b.extractLsb' lo n

/-- One bit of a byte. -/
def bitOf (b : BitVec 8) (k : Nat) : Bool := b.getLsbD k

/-- One bit as a field. -/
def bit1 (b : Bool) : BitVec 1 := BitVec.ofBool b

/-- The address in an extension word: its low 16 bits (20_memory.md R101). -/
def addrOf (x : Word) : Addr := x.setWidth 16

/-- An address as an extension word. -/
def wordOf (a : Addr) : Word := a.setWidth 24

/-! ### Field tables (R160 to R168) -/

/-- `d` (R160). -/
def decAcc (b : Bool) : Acc := if b then .b else .a

/-- `d`, encoded. -/
def encAcc : Acc → BitVec 1
  | .a => 0
  | .b => 1

/-- `JJ` (R187, R202). -/
def decWReg (f : BitVec 2) : WReg :=
  if f = 0 then .x0 else if f = 1 then .y0 else if f = 2 then .x1 else .y1

/-- `JJ`, encoded. -/
def encWReg : WReg → BitVec 2
  | .x0 => 0
  | .y0 => 1
  | .x1 => 2
  | .y1 => 3

/-- `QQQ`, Table A-28 (R186). -/
def decMulPair (f : BitVec 3) : MulPair :=
  if f = 0 then .x0x0 else if f = 1 then .y0y0 else if f = 2 then .x1x0 else if f = 3 then .y1y0
  else if f = 4 then .x0y1 else if f = 5 then .y0x0 else if f = 6 then .x1y0 else .y1x1

/-- `QQQ`, encoded. -/
def encMulPair : MulPair → BitVec 3
  | .x0x0 => 0
  | .y0y0 => 1
  | .x1x0 => 2
  | .y1y0 => 3
  | .x0y1 => 4
  | .y0x0 => 5
  | .x1y0 => 6
  | .y1x1 => 7

/-- `J` (R188): X or Y. -/
def decLReg (b : Bool) : LReg := if b then .y else .x

/-- `J`, encoded. -/
def encLReg : LReg → BitVec 1
  | .x => 0
  | .y => 1

/-- Four-bit register codes, Table A-19(a) (R59). -/
def decDReg (f : BitVec 4) : Except DecodeError DReg :=
  match f.toNat with
  | 4 => .ok .x0 | 5 => .ok .x1 | 6 => .ok .y0 | 7 => .ok .y1
  | 8 => .ok .a0 | 9 => .ok .b0 | 10 => .ok .a2 | 11 => .ok .b2
  | 12 => .ok .a1 | 13 => .ok .b1 | 14 => .ok .a | 15 => .ok .b
  | _ => .error .reservedRegister

/-- A data-ALU register's four-bit code. -/
def encDReg : DReg → BitVec 4
  | .x0 => 4
  | .x1 => 5
  | .y0 => 6
  | .y1 => 7
  | .a0 => 8
  | .b0 => 9
  | .a2 => 10
  | .b2 => 11
  | .a1 => 12
  | .b1 => 13
  | .a => 14
  | .b => 15

/-- `GGG` (R162). -/
def decCtl (f : BitVec 3) : Except DecodeError CtlReg :=
  match f.toNat with
  | 1 => .ok .sr | 2 => .ok .omr | 3 => .ok .sp | 4 => .ok .ssh
  | 5 => .ok .ssl | 6 => .ok .la | 7 => .ok .lc
  | _ => .error .reservedRegister

/-- `GGG`, encoded. -/
def encCtl : CtlReg → BitVec 3
  | .sr => 1
  | .omr => 2
  | .sp => 3
  | .ssh => 4
  | .ssl => 5
  | .la => 6
  | .lc => 7

/-- Five-bit register codes, Table A-20 (R59). -/
def decReg5 (f : BitVec 5) : Except DecodeError Reg5 :=
  if f.getLsbD 4 then
    .ok (if f.getLsbD 3 then .n (f.extractLsb' 0 3) else .r (f.extractLsb' 0 3))
  else (decDReg (f.extractLsb' 0 4)).map .d

/-- A five-bit register code. -/
def encReg5 : Reg5 → BitVec 5
  | .d x => 0#1 ++ encDReg x
  | .r k => 0b10#2 ++ k
  | .n k => 0b11#2 ++ k

/-- Six-bit register codes, Table A-21 (10_state.md R57). -/
def decReg (f : BitVec 6) : Except DecodeError Reg :=
  if f.getLsbD 5 = false then (decReg5 (f.extractLsb' 0 5)).map Reg5.toReg
  else if f.extractLsb' 3 2 = 0 then .ok (.m (f.extractLsb' 0 3))
  else if f.extractLsb' 3 2 = 3 then (decCtl (f.extractLsb' 0 3)).map .c
  else .error .reservedRegister

/-- A six-bit register code. -/
def encReg : Reg → BitVec 6
  | .d x => 0b00#2 ++ encDReg x
  | .r k => 0b010#3 ++ k
  | .n k => 0b011#3 ++ k
  | .m k => 0b100#3 ++ k
  | .c x => 0b111#3 ++ encCtl x

/-- The low five bits of MOVEC's `1ddddd` (R199). -/
def decCReg (f : BitVec 5) : Except DecodeError CReg :=
  if f.extractLsb' 3 2 = 0 then .ok (.m (f.extractLsb' 0 3))
  else if f.extractLsb' 3 2 = 3 then (decCtl (f.extractLsb' 0 3)).map .c
  else .error .reservedRegister

/-- The low five bits of MOVEC's `1ddddd`, encoded. -/
def encCReg : CReg → BitVec 5
  | .m k => 0b00#2 ++ k
  | .c x => 0b11#2 ++ encCtl x

/-- LUA's `dddd` (R200). -/
def decRN (f : BitVec 4) : RNReg := if f.getLsbD 3 then .n (f.extractLsb' 0 3) else .r (f.extractLsb' 0 3)

/-- LUA's `dddd`, encoded. -/
def encRN : RNReg → BitVec 4
  | .r k => 0#1 ++ k
  | .n k => 1#1 ++ k

/-- `ee` (R161). -/
def decXReg (f : BitVec 2) : XReg :=
  if f = 0 then .x0 else if f = 1 then .x1 else if f = 2 then .a else .b

/-- `ee`, encoded. -/
def encXReg : XReg → BitVec 2
  | .x0 => 0
  | .x1 => 1
  | .a => 2
  | .b => 3

/-- `ff` (R161). -/
def decYReg (f : BitVec 2) : YReg :=
  if f = 0 then .y0 else if f = 1 then .y1 else if f = 2 then .a else .b

/-- `ff`, encoded. -/
def encYReg : YReg → BitVec 2
  | .y0 => 0
  | .y1 => 1
  | .a => 2
  | .b => 3

/-- `e` (R160). -/
def decXSel (b : Bool) : XSel := if b then .x1 else .x0

/-- `e`, encoded. -/
def encXSel : XSel → BitVec 1
  | .x0 => 0
  | .x1 => 1

/-- `f` (R160). -/
def decYSel (b : Bool) : YSel := if b then .y1 else .y0

/-- `f`, encoded. -/
def encYSel : YSel → BitVec 1
  | .y0 => 0
  | .y1 => 1

/-- `LLL` (R162). -/
def decLOp (f : BitVec 3) : LOp :=
  if f = 0 then .a10 else if f = 1 then .b10 else if f = 2 then .x else if f = 3 then .y
  else if f = 4 then .a else if f = 5 then .b else if f = 6 then .ab else .ba

/-- `LLL`, encoded: bits 2, 1, 0. -/
def encLOp : LOp → BitVec 3
  | .a10 => 0
  | .b10 => 1
  | .x => 2
  | .y => 3
  | .a => 4
  | .b => 5
  | .ab => 6
  | .ba => 7

/-- `S` (R164). -/
def decSpace (b : Bool) : DSpace := if b then .y else .x

/-- `S`, encoded. -/
def encSpace : DSpace → BitVec 1
  | .x => 0
  | .y => 1

/-- `W` (R164). -/
def decDir (b : Bool) : Dir := if b then .toReg else .toMem

/-- `W`, encoded. -/
def encDir : Dir → BitVec 1
  | .toMem => 0
  | .toReg => 1

/-- `MM` of LUA and U (R129). -/
def decUMode (f : BitVec 2) : UMode :=
  if f = 0 then .subN else if f = 1 then .addN else if f = 2 then .dec else .inc

/-- `MM` of LUA and U, encoded. -/
def encUMode : UMode → BitVec 2
  | .subN => 0
  | .addN => 1
  | .dec => 2
  | .inc => 3

/-- `MM` and `mm` of X:Y: (R128). -/
def decXYMode (f : BitVec 2) : XYMode :=
  if f = 0 then .noUpdate else if f = 1 then .addN else if f = 2 then .dec else .inc

/-- `MM` and `mm` of X:Y:, encoded. -/
def encXYMode : XYMode → BitVec 2
  | .noUpdate => 0
  | .addN => 1
  | .dec => 2
  | .inc => 3

/-- `CCCC` (10_state.md R74). -/
def decCond (f : BitVec 4) : Cond :=
  match f.toNat with
  | 0 => .cc | 1 => .ge | 2 => .ne | 3 => .pl | 4 => .nn | 5 => .ec | 6 => .lc | 7 => .gt
  | 8 => .cs | 9 => .lt | 10 => .eq | 11 => .mi | 12 => .nr | 13 => .es | 14 => .ls | _ => .le

/-- `CCCC`, encoded. -/
def encCond : Cond → BitVec 4
  | .cc => 0
  | .ge => 1
  | .ne => 2
  | .pl => 3
  | .nn => 4
  | .ec => 5
  | .lc => 6
  | .gt => 7
  | .cs => 8
  | .lt => 9
  | .eq => 10
  | .mi => 11
  | .nr => 12
  | .es => 13
  | .ls => 14
  | .le => 15

/-- `JJJ` of Tcc (R201). -/
def decTSrc (f : BitVec 3) : Except DecodeError TSrc :=
  if f = 0 then .ok .other
  else if f.getLsbD 2 then .ok (.word (decWReg (f.extractLsb' 0 2)))
  else .error .reservedEncoding

/-- `JJJ` of Tcc, encoded. -/
def encTSrc : TSrc → BitVec 3
  | .other => 0
  | .word w => 1#1 ++ encWReg w

/-- `EE` (R164). -/
def decImmDest (f : BitVec 2) : Except DecodeError ImmDest :=
  if f = 0 then .ok .mr else if f = 1 then .ok .ccr else if f = 2 then .ok .omr
  else .error .reservedImmDest

/-- `EE`, encoded. -/
def encImmDest : ImmDest → BitVec 2
  | .mr => 0
  | .ccr => 1
  | .omr => 2

/-! ### Effective addresses (20_memory.md R120, R122) -/

/-- `MMM` other than 110 (R120). -/
def decMode (f : BitVec 3) : Option AguMode :=
  match f.toNat with
  | 0 => some .postSubN | 1 => some .postAddN | 2 => some .postDec | 3 => some .postInc
  | 4 => some .noUpdate | 5 => some .indexed | 7 => some .preDec
  | _ => none

/-- `MMM`, encoded. -/
def encMode : AguMode → BitVec 3
  | .postSubN => 0
  | .postAddN => 1
  | .postDec => 2
  | .postInc => 3
  | .noUpdate => 4
  | .indexed => 5
  | .preDec => 7

/-- `MMMRRR` where only address-register-indirect modes are offered (R151). -/
def decInd (f : BitVec 6) : Except DecodeError Ind :=
  match decMode (f.extractLsb' 3 3) with
  | some m => .ok { mode := m, reg := f.extractLsb' 0 3 }
  | none => .error .reservedMode

/-- `MMMRRR` where the absolute address is offered too; `x` is the extension word. -/
def decEa (f : BitVec 6) (x : Word) : Except DecodeError Ea :=
  if f = 0b110000#6 then .ok (.abs (addrOf x)) else (decInd f).map .ind

/-- `MMMRRR` of a source operand, where immediate data is offered too (R122). -/
def decEaImm (f : BitVec 6) (x : Word) : Except DecodeError EaImm :=
  if f = 0b110100#6 then .ok (.imm x) else (decEa f x).map .mem

/-- `W` and `MMMRRR` (R122, R164). -/
def decXfer (w : Bool) (f : BitVec 6) (x : Word) : Except DecodeError Xfer :=
  if w then (decEaImm f x).map .toReg else (decEa f x).map .toMem

/-- An indirect operand's `MMMRRR`. -/
def encInd (i : Ind) : BitVec 6 := encMode i.mode ++ i.reg

/-- An effective address's `MMMRRR`. -/
def encEa : Ea → BitVec 6
  | .ind i => encInd i
  | .abs _ => 0b110000

/-- An effective address's extension word. -/
def extEa : Ea → Option Word
  | .ind _ => none
  | .abs a => some (wordOf a)

/-- A source operand's `MMMRRR`. -/
def encEaImm : EaImm → BitVec 6
  | .mem ea => encEa ea
  | .imm _ => 0b110100

/-- A source operand's extension word. -/
def extEaImm : EaImm → Option Word
  | .mem ea => extEa ea
  | .imm v => some v

/-- A transfer's `W`. -/
def encXferW : Xfer → BitVec 1
  | .toReg _ => 1
  | .toMem _ => 0

/-- A transfer's `MMMRRR`. -/
def encXfer : Xfer → BitVec 6
  | .toReg s => encEaImm s
  | .toMem d => encEa d

/-- A transfer's extension word. -/
def extXfer : Xfer → Option Word
  | .toReg s => extEaImm s
  | .toMem d => extEa d

/-! ### The data bus move field, bits 23:8 (R170 to R184) -/

/-- The moves under prefix 001000: NOP, U and R (R175 to R178). -/
def decMoveR (h m : BitVec 8) : Except DecodeError ParMove :=
  let src : BitVec 5 := bits h 0 2 ++ bits m 5 3
  let dst : BitVec 5 := bits m 0 5
  if src = 0 then (if dst = 0 then .ok .none else .error .reservedMove)
  else if src = 0b00010#5 then .ok (.upd (decUMode (bits m 3 2)) (bits m 0 3))
  else do
    let s ← (decReg5 src).mapError fun _ => DecodeError.reservedMove
    let d ← (decReg5 dst).mapError fun _ => DecodeError.reservedMove
    return .reg s d

/-- The moves with bits 23:22 = 01: L:, X: and Y: (R171 to R173). -/
def decMoveMem (h m : BitVec 8) (x : Word) : Except DecodeError ParMove :=
  let w := bitOf m 7
  let isEa := bitOf m 6
  let f := bits m 0 6
  if bits h 4 2 = 0 && !bitOf h 2 then
    let l := decLOp (bits h 3 1 ++ bits h 0 2)
    if isEa then (decEa f x).map fun ea => .lEa (decDir w) ea l
    else .ok (.lAa (decDir w) f l)
  else do
    let r ← decReg5 (bits h 4 2 ++ bits h 0 3)
    match bitOf h 3, isEa with
    | false, true => return .xEa (← decXfer w f x) r
    | false, false => return .xAa (decDir w) f r
    | true, true => return .yEa (← decXfer w f x) r
    | true, false => return .yAa (decDir w) f r

/-- The move field of a class P word: `h` is bits 23:16, `m` bits 15:8, `x` the extension word. -/
def decMove (h m : BitVec 8) (x : Word) : Except DecodeError ParMove :=
  let w := bitOf m 7
  let f := bits m 0 6
  if bitOf h 7 then
    .ok (.xy (decDir w) (decXReg (bits h 2 2)) (decXYMode (bits m 3 2)) (bits m 0 3)
      (decDir (bitOf h 6)) (decYReg (bits h 0 2)) (decXYMode (bits h 4 2)) (bits m 5 2))
  else if bitOf h 6 then decMoveMem h m x
  else if bitOf h 5 then
    if bits h 2 3 = 0 then decMoveR h m
    else (decReg5 (bits h 0 5)).map fun d => .imm d m
  else if bitOf h 4 then
    if bitOf m 6 then
      (decXfer w f x).map fun t => .ry (decAcc (bitOf h 3)) (decXSel (bitOf h 2)) (decYReg (bits h 0 2)) t
    else
      (decXfer w f x).map fun t => .xr (decXReg (bits h 2 2)) t (decAcc (bitOf h 1)) (decYSel (bitOf h 0))
  else
    (decEa f x).map fun ea => if w then .ry2 (decAcc (bitOf h 0)) ea else .xr2 (decAcc (bitOf h 0)) ea

/-- Bits 23:16 and 15:8 of a move field. -/
def encMove : ParMove → BitVec 8 × BitVec 8
  | .none => (0x20, 0x00)
  | .imm d i => (0b001#3 ++ encReg5 d, i)
  | .reg s d =>
    let c := encReg5 s
    (0b001000#6 ++ c.extractLsb' 3 2, c.extractLsb' 0 3 ++ encReg5 d)
  | .upd mm r => (0x20, 0b010#3 ++ encUMode mm ++ r)
  | .xEa x r =>
    let c := encReg5 r
    (0b01#2 ++ c.extractLsb' 3 2 ++ 0#1 ++ c.extractLsb' 0 3, encXferW x ++ 1#1 ++ encXfer x)
  | .xAa w aa r =>
    let c := encReg5 r
    (0b01#2 ++ c.extractLsb' 3 2 ++ 0#1 ++ c.extractLsb' 0 3, encDir w ++ 0#1 ++ aa)
  | .yEa x r =>
    let c := encReg5 r
    (0b01#2 ++ c.extractLsb' 3 2 ++ 1#1 ++ c.extractLsb' 0 3, encXferW x ++ 1#1 ++ encXfer x)
  | .yAa w aa r =>
    let c := encReg5 r
    (0b01#2 ++ c.extractLsb' 3 2 ++ 1#1 ++ c.extractLsb' 0 3, encDir w ++ 0#1 ++ aa)
  | .lEa w ea l =>
    let c := encLOp l
    (0b0100#4 ++ c.extractLsb' 2 1 ++ 0#1 ++ c.extractLsb' 0 2, encDir w ++ 1#1 ++ encEa ea)
  | .lAa w aa l =>
    let c := encLOp l
    (0b0100#4 ++ c.extractLsb' 2 1 ++ 0#1 ++ c.extractLsb' 0 2, encDir w ++ 0#1 ++ aa)
  | .xr ee x d f => (0b0001#4 ++ encXReg ee ++ encAcc d ++ encYSel f, encXferW x ++ 0#1 ++ encXfer x)
  | .ry d e ff x => (0b0001#4 ++ encAcc d ++ encXSel e ++ encYReg ff, encXferW x ++ 1#1 ++ encXfer x)
  | .xr2 d ea => (0b0000100#7 ++ encAcc d, 0b00#2 ++ encEa ea)
  | .ry2 d ea => (0b0000100#7 ++ encAcc d, 0b10#2 ++ encEa ea)
  | .xy wx ee mx rx wy ff my ry =>
    (1#1 ++ encDir wy ++ encXYMode my ++ encXReg ee ++ encYReg ff,
     encDir wx ++ ry ++ encXYMode mx ++ rx)

/-- The extension word of a move field (R152). -/
def extMove : ParMove → Option Word
  | .xEa x _ | .yEa x _ | .xr _ x _ _ | .ry _ _ _ x => extXfer x
  | .lEa _ ea _ | .xr2 _ ea | .ry2 _ ea => extEa ea
  | _ => none

/-! ### The data-ALU operation code, bits 7:0 (R186 to R189) -/

/-- The MOVE instruction of a move field (R417). -/
def moveInstr : ParMove → Instr
  | .none => .moveNone
  | .imm d i => .moveImm d i
  | .reg s d => .moveReg s d
  | .upd mm r => .moveUpd mm r
  | .xEa x r => .moveXEa x r
  | .xAa w aa r => .moveXAa w aa r
  | .yEa x r => .moveYEa x r
  | .yAa w aa r => .moveYAa w aa r
  | .lEa w ea l => .moveLEa w ea l
  | .lAa w aa l => .moveLAa w aa l
  | .xr ee x d f => .moveXR ee x d f
  | .ry d e ff x => .moveRY d e ff x
  | .xr2 d ea => .moveXR2 d ea
  | .ry2 d ea => .moveRY2 d ea
  | .xy wx ee mx rx wy ff my ry => .moveXY wx ee mx rx wy ff my ry

/-- The instruction of a class P word from its operation code `l` and its move (R186, R187). -/
def decAlu (l : BitVec 8) (mv : ParMove) : Except DecodeError Instr :=
  let d := decAcc (bitOf l 3)
  let w := decWReg (bits l 4 2)
  let j := decLReg (bitOf l 4)
  let kkk := (bits l 0 3).toNat
  if bitOf l 7 then
    let q := decMulPair (bits l 4 3)
    let neg := bitOf l 2
    match (bits l 0 2).toNat with
    | 0 => .ok (.mpy neg q d mv)
    | 1 => .ok (.mpyr neg q d mv)
    | 2 => .ok (.mac neg q d mv)
    | _ => .ok (.macr neg q d mv)
  else if bitOf l 6 then
    match kkk with
    | 0 => .ok (.addWord w d mv)
    | 1 => .ok (.tfrWord w d mv)
    | 2 => .ok (.orWord w d mv)
    | 3 => .ok (.eorWord w d mv)
    | 4 => .ok (.subWord w d mv)
    | 5 => .ok (.cmpWord w d mv)
    | 6 => .ok (.andWord w d mv)
    | _ => .ok (.cmpmWord w d mv)
  else
    match (bits l 4 2).toNat, kkk with
    | 0, 0 => if l = 0 then .ok (moveInstr mv) else .error .reservedAluOp
    | 0, 1 => .ok (.tfrAcc d mv)
    | 0, 2 => .ok (.addr d mv)
    | 0, 3 => .ok (.tst d mv)
    | 0, 5 => .ok (.cmpAcc d mv)
    | 0, 6 => .ok (.subr d mv)
    | 0, 7 => .ok (.cmpmAcc d mv)
    | 1, 0 => .ok (.addAcc d mv)
    | 1, 1 => .ok (.rnd d mv)
    | 1, 2 => .ok (.addl d mv)
    | 1, 3 => .ok (.clr d mv)
    | 1, 4 => .ok (.subAcc d mv)
    | 1, 6 => .ok (.subl d mv)
    | 1, 7 => .ok (.notAcc d mv)
    | 2, 2 => .ok (.asr d mv)
    | 2, 3 => .ok (.lsr d mv)
    | 2, 6 => .ok (.absAcc d mv)
    | 2, 7 => .ok (.ror d mv)
    | 3, 2 => .ok (.asl d mv)
    | 3, 3 => .ok (.lsl d mv)
    | 3, 6 => .ok (.neg d mv)
    | 3, 7 => .ok (.rol d mv)
    | 2, 0 | 3, 0 => .ok (.addLong j d mv)
    | 2, 1 | 3, 1 => .ok (.adc j d mv)
    | 2, 4 | 3, 4 => .ok (.subLong j d mv)
    | 2, 5 | 3, 5 => .ok (.sbc j d mv)
    | _, _ => .error .reservedAluOp

/-! ### Class N words (R190 to R204) -/

/-- Bit-number operands of the four bit-instruction rows and the four bit-jump rows share this shape: the
operand kind is bits 15:14 (R192, R193). `jump` is bit 7 and `set` bit 5 of the low byte for kinds other
than the register; `top` is bit 16. -/
def decBit (top jump set : Bool) (m l : BitVec 8) (x : Word) : Except DecodeError Instr :=
  let n := bits l 0 5
  let s := decSpace (bitOf l 6)
  let f := bits m 0 6
  let t := addrOf x
  match (bits m 6 2).toNat, jump, top, set with
  | 2, true, true, true => .ok (.jssetPp s f n t)
  | 2, true, true, false => .ok (.jsclrPp s f n t)
  | 2, true, false, true => .ok (.jsetPp s f n t)
  | 2, true, false, false => .ok (.jclrPp s f n t)
  | 2, false, true, true => .ok (.btstPp s f n)
  | 2, false, true, false => .ok (.bchgPp s f n)
  | 2, false, false, true => .ok (.bsetPp s f n)
  | 2, false, false, false => .ok (.bclrPp s f n)
  | 1, true, true, true => (decInd f).map fun i => .jssetEa s i n t
  | 1, true, true, false => (decInd f).map fun i => .jsclrEa s i n t
  | 1, true, false, true => (decInd f).map fun i => .jsetEa s i n t
  | 1, true, false, false => (decInd f).map fun i => .jclrEa s i n t
  | 1, false, true, true => (decEa f x).map fun ea => .btstEa s ea n
  | 1, false, true, false => (decEa f x).map fun ea => .bchgEa s ea n
  | 1, false, false, true => (decEa f x).map fun ea => .bsetEa s ea n
  | 1, false, false, false => (decEa f x).map fun ea => .bclrEa s ea n
  | 0, true, true, true => .ok (.jssetAa s f n t)
  | 0, true, true, false => .ok (.jsclrAa s f n t)
  | 0, true, false, true => .ok (.jsetAa s f n t)
  | 0, true, false, false => .ok (.jclrAa s f n t)
  | 0, false, true, true => .ok (.btstAa s f n)
  | 0, false, true, false => .ok (.bchgAa s f n)
  | 0, false, false, true => .ok (.bsetAa s f n)
  | 0, false, false, false => .ok (.bclrAa s f n)
  | _, true, true, true => (decReg f).map fun r => .jssetReg r n t
  | _, true, true, false => (decReg f).map fun r => .jsclrReg r n t
  | _, true, false, true => (decReg f).map fun r => .jsetReg r n t
  | _, true, false, false => (decReg f).map fun r => .jclrReg r n t
  | _, false, true, true => (decReg f).map fun r => .btstReg r n
  | _, false, true, false => (decReg f).map fun r => .bchgReg r n
  | _, false, false, true => (decReg f).map fun r => .bsetReg r n
  | _, false, false, false => (decReg f).map fun r => .bclrReg r n

/-- Top bytes 00001010 (`top` false) and 00001011 (`top` true): bit instructions, bit jumps and the jumps
through an effective address (R191 to R194). -/
def decBitPage (top : Bool) (m l : BitVec 8) (x : Word) : Except DecodeError Instr :=
  if bits m 6 2 = 3 then
    match (bits l 5 3).toNat with
    | 0 => decBit top true false m l x
    | 1 => decBit top true true m l x
    | 2 => decBit top false false m l x
    | 3 => decBit top false true m l x
    | 4 =>
      if bits l 0 5 = 0 then
        (decEa (bits m 0 6) x).map fun ea => if top then .jsrEa ea else .jmpEa ea
      else .error .reservedEncoding
    | 5 =>
      if bitOf l 4 then .error .reservedEncoding
      else
        let k := decCond (bits l 0 4)
        (decEa (bits m 0 6) x).map fun ea => if top then .jsccEa k ea else .jccEa k ea
    | _ => .error .reservedEncoding
  else decBit top (bitOf l 7) (bitOf l 5) m l x

/-- Top bytes 0000100S with bit 14 = 1: MOVEP (R195). -/
def decMovep (ps : DSpace) (m l : BitVec 8) (x : Word) : Except DecodeError Instr :=
  let w := bitOf m 7
  let f := bits m 0 6
  let pp := bits l 0 6
  if bitOf l 7 then (decXfer w f x).map fun t => .movepEa ps pp (decSpace (bitOf l 6)) t
  else if bitOf l 6 then (decEa f x).map fun ea => .movepP ps pp (decDir w) ea
  else (decReg f).map fun r => .movepReg ps pp (decDir w) r

/-- Top byte 00000111: MOVEM (R196). -/
def decMovem (m l : BitVec 8) (x : Word) : Except DecodeError Instr := do
  let w := decDir (bitOf m 7)
  let f := bits m 0 6
  match bitOf m 6, (bits l 6 2).toNat with
  | true, 2 =>
    let r ← decReg (bits l 0 6)
    return .movemEa w (← decEa f x) r
  | false, 0 =>
    let r ← decReg (bits l 0 6)
    return .movemAa w f r
  | _, _ => throw .reservedEncoding

/-- Top byte 00000110: REP and DO (R197, R198). -/
def decLoop (m l : BitVec 8) (x : Word) : Except DecodeError Instr :=
  let f := bits m 0 6
  let s := decSpace (bitOf l 6)
  let rep := bitOf l 5
  let last := addrOf x
  if bitOf l 7 then
    let count : BitVec 12 := bits l 0 4 ++ m
    match (bits l 4 3).toNat with
    | 2 => .ok (.repImm count)
    | 0 => .ok (.doImm count last)
    | _ => .error .reservedEncoding
  else if bits l 0 5 ≠ 0 then .error .reservedEncoding
  else
    match (bits m 6 2).toNat with
    | 3 =>
      if bitOf l 6 then .error .reservedEncoding
      else (decReg f).map fun r => if rep then .repReg r else .doReg r last
    | 1 => (decInd f).map fun i => if rep then .repEa s i else .doEa s i last
    | 0 => .ok (if rep then .repAa s f else .doAa s f last)
    | _ => .error .reservedEncoding

/-- Top byte 00000101: MOVEC with memory or a short immediate (R199). -/
def decMovecMem (m l : BitVec 8) (x : Word) : Except DecodeError Instr := do
  if bitOf l 5 then
    if bitOf l 7 then
      if bitOf l 6 then throw .reservedEncoding
      else return .movecImm m (← decCReg (bits l 0 5))
    else
      let c ← decCReg (bits l 0 5)
      let s := decSpace (bitOf l 6)
      if bitOf m 6 then return .movecEa s (← decXfer (bitOf m 7) (bits m 0 6) x) c
      else return .movecAa s (decDir (bitOf m 7)) (bits m 0 6) c
  else throw .reservedEncoding

/-- Top byte 00000100: MOVEC between registers, and LUA (R199, R200). -/
def decMovecReg (m l : BitVec 8) : Except DecodeError Instr := do
  if bitOf m 6 && bits l 5 3 = 0b101#3 then
    let c ← decCReg (bits l 0 5)
    return .movecReg (decDir (bitOf m 7)) (← decReg (bits m 0 6)) c
  else if bits m 5 3 = 0b010#3 && bits l 4 4 = 0b0001#4 then
    return .lua (decUMode (bits m 3 2)) (bits m 0 3) (decRN (bits l 0 4))
  else throw .reservedEncoding

/-- Top bytes 0000001x: Tcc (R201). -/
def decTcc (two : Bool) (m l : BitVec 8) : Except DecodeError Instr := do
  if bitOf l 7 || bitOf m 3 then throw .reservedEncoding
  let src ← decTSrc (bits l 4 3)
  let d := decAcc (bitOf l 3)
  let k := decCond (bits m 4 4)
  if two then return .tccR k src d (bits m 0 3) (bits l 0 3)
  else if bits m 0 3 = 0 && bits l 0 3 = 0 then return .tcc k src d
  else throw .reservedEncoding

/-- Top byte 00000001: NORM, DIV and the multiplies by a power of two (R202, R203). -/
def decNormDiv (m l : BitVec 8) : Except DecodeError Instr :=
  let d := decAcc (bitOf l 3)
  if bits m 3 5 = 0b11011#5 then
    if bits l 4 4 = 1 && bits l 0 3 = 5 then .ok (.norm (bits m 0 3) d) else .error .reservedEncoding
  else if m = 0x80#8 then
    if bits l 6 2 = 1 && bits l 0 3 = 0 then .ok (.divStep (decWReg (bits l 4 2)) d)
    else .error .reservedEncoding
  else if bits m 5 3 = 0 && bits l 6 2 = 3 then
    let neg := bitOf l 2
    let qq := bits l 4 2
    let sh := bits m 0 5
    match (bits l 0 2).toNat with
    | 0 => .ok (.mpyImm neg qq d sh)
    | 1 => .ok (.mpyrImm neg qq d sh)
    | 2 => .ok (.macImm neg qq d sh)
    | _ => .ok (.macrImm neg qq d sh)
  else .error .reservedEncoding

/-- Top byte 00000000: the fixed codes, ANDI and ORI (R204, R205). -/
def decZero (m l : BitVec 8) : Except DecodeError Instr :=
  if bits l 2 6 = 0b111110#6 then (decImmDest (bits l 0 2)).map fun e => .ori m e
  else if bits l 2 6 = 0b101110#6 then (decImmDest (bits l 0 2)).map fun e => .andi m e
  else
    match m.toNat, l.toNat with
    | 0, 0x00 => .ok .nop
    | 0, 0x04 => .ok .rti
    | 0, 0x05 => .ok .illegal
    | 0, 0x06 => .ok .swi
    | 0, 0x08 => .ok (.inc .a)
    | 0, 0x09 => .ok (.inc .b)
    | 0, 0x0A => .ok (.dec .a)
    | 0, 0x0B => .ok (.dec .b)
    | 0, 0x0C => .ok .rts
    | 0, 0x84 => .ok .reset
    | 0, 0x86 => .ok .wait
    | 0, 0x87 => .ok .stop
    | 0, 0x8C => .ok .enddo
    | 2, 0 => .ok .debug
    | 3, _ => if bits l 4 4 = 0 then .ok (.debugcc (decCond (bits l 0 4))) else .error .reservedEncoding
    | _, _ => .error .reservedEncoding

/-- A word is class P (R155). -/
def isClassP (h m : BitVec 8) : Bool :=
  !(bits h 4 4 = 0) || (bits h 1 7 = 0b0000100#7 && !bitOf m 6)

/-- The instruction of a word, before the checks of WellFormed.lean (R211). -/
def decodeRaw (w x : Word) : Except DecodeError Instr :=
  let h := hi8 w
  let m := mid8 w
  let l := lo8 w
  if isClassP h m then do
    let mv ← decMove h m x
    decAlu l mv
  else
    match h.toNat with
    | 0x00 => decZero m l
    | 0x01 => decNormDiv m l
    | 0x02 => decTcc false m l
    | 0x03 => decTcc true m l
    | 0x04 => decMovecReg m l
    | 0x05 => decMovecMem m l x
    | 0x06 => decLoop m l x
    | 0x07 => decMovem m l x
    | 0x08 => decMovep .x m l x
    | 0x09 => decMovep .y m l x
    | 0x0A => decBitPage false m l x
    | 0x0B => decBitPage true m l x
    | 0x0C => if bits m 4 4 = 0 then .ok (.jmpShort (bits m 0 4 ++ l)) else .error .reservedEncoding
    | 0x0D => if bits m 4 4 = 0 then .ok (.jsrShort (bits m 0 4 ++ l)) else .error .reservedEncoding
    | 0x0E => .ok (.jccShort (decCond (bits m 4 4)) (bits m 0 4 ++ l))
    | 0x0F => .ok (.jsccShort (decCond (bits m 4 4)) (bits m 0 4 ++ l))
    | _ => .error .reservedEncoding

/-- The instruction that the word `w`, followed by the word `x`, holds, or the name under which the word
is rejected. -/
def decode (w x : Word) : Except DecodeError Instr :=
  match decodeRaw w x with
  | .error e => .error e
  | .ok i =>
    match i.check with
    | none => .ok i
    | some e => .error e

/-- The decoder on the bits of spec/opcode_table.json: bit 0 is bit 0 of the first word, bit 24 bit 0 of
the second, and every bit from `nbits` up is 0. -/
def decodeTableWord (nbits w : Nat) : Option Instr :=
  let v := w % 2 ^ nbits
  (decode (BitVec.ofNat 24 v) (BitVec.ofNat 24 (v / 16777216))).toOption

/-! ### The encoder -/

/-- A class P word: the move field and the operation code. -/
def encPar (mv : ParMove) (op : BitVec 8) : Word × Option Word :=
  (join24 (encMove mv).1 (encMove mv).2 op, extMove mv)

/-- A bit instruction's or bit jump's word (R192, R193). `top` is the top byte, `kind` bits 15:14, `f` bits
13:8, `lead` bits 7:5. -/
def encBit (top : BitVec 8) (kind : BitVec 2) (f : BitVec 6) (lead : BitVec 3) (n : BitVec 5) : Word :=
  join24 top (kind ++ f) (lead ++ n)

/-- The first word of an instruction, and its second word where it has one. -/
def encode : Instr → Word × Option Word
  | .jsccShort k a => (join24 0x0F (encCond k ++ a.extractLsb' 8 4) (a.extractLsb' 0 8), none)
  | .jccShort k a => (join24 0x0E (encCond k ++ a.extractLsb' 8 4) (a.extractLsb' 0 8), none)
  | .jsrShort a => (join24 0x0D (0#4 ++ a.extractLsb' 8 4) (a.extractLsb' 0 8), none)
  | .jmpShort a => (join24 0x0C (0#4 ++ a.extractLsb' 8 4) (a.extractLsb' 0 8), none)
  | .jsccEa k ea => (join24 0x0B (0b11#2 ++ encEa ea) (0b1010#4 ++ encCond k), extEa ea)
  | .jsrEa ea => (join24 0x0B (0b11#2 ++ encEa ea) 0x80, extEa ea)
  | .jccEa k ea => (join24 0x0A (0b11#2 ++ encEa ea) (0b1010#4 ++ encCond k), extEa ea)
  | .jmpEa ea => (join24 0x0A (0b11#2 ++ encEa ea) 0x80, extEa ea)
  | .jssetPp s pp n t => (encBit 0x0B 0b10 pp (1#1 ++ encSpace s ++ 1#1) n, some (wordOf t))
  | .jssetEa s i n t => (encBit 0x0B 0b01 (encInd i) (1#1 ++ encSpace s ++ 1#1) n, some (wordOf t))
  | .jssetAa s aa n t => (encBit 0x0B 0b00 aa (1#1 ++ encSpace s ++ 1#1) n, some (wordOf t))
  | .jssetReg r n t => (encBit 0x0B 0b11 (encReg r) 0b001 n, some (wordOf t))
  | .jsclrPp s pp n t => (encBit 0x0B 0b10 pp (1#1 ++ encSpace s ++ 0#1) n, some (wordOf t))
  | .jsclrEa s i n t => (encBit 0x0B 0b01 (encInd i) (1#1 ++ encSpace s ++ 0#1) n, some (wordOf t))
  | .jsclrAa s aa n t => (encBit 0x0B 0b00 aa (1#1 ++ encSpace s ++ 0#1) n, some (wordOf t))
  | .jsclrReg r n t => (encBit 0x0B 0b11 (encReg r) 0b000 n, some (wordOf t))
  | .jsetPp s pp n t => (encBit 0x0A 0b10 pp (1#1 ++ encSpace s ++ 1#1) n, some (wordOf t))
  | .jsetEa s i n t => (encBit 0x0A 0b01 (encInd i) (1#1 ++ encSpace s ++ 1#1) n, some (wordOf t))
  | .jsetAa s aa n t => (encBit 0x0A 0b00 aa (1#1 ++ encSpace s ++ 1#1) n, some (wordOf t))
  | .jsetReg r n t => (encBit 0x0A 0b11 (encReg r) 0b001 n, some (wordOf t))
  | .jclrPp s pp n t => (encBit 0x0A 0b10 pp (1#1 ++ encSpace s ++ 0#1) n, some (wordOf t))
  | .jclrEa s i n t => (encBit 0x0A 0b01 (encInd i) (1#1 ++ encSpace s ++ 0#1) n, some (wordOf t))
  | .jclrAa s aa n t => (encBit 0x0A 0b00 aa (1#1 ++ encSpace s ++ 0#1) n, some (wordOf t))
  | .jclrReg r n t => (encBit 0x0A 0b11 (encReg r) 0b000 n, some (wordOf t))
  | .btstPp s pp n => (encBit 0x0B 0b10 pp (0#1 ++ encSpace s ++ 1#1) n, none)
  | .btstEa s ea n => (encBit 0x0B 0b01 (encEa ea) (0#1 ++ encSpace s ++ 1#1) n, extEa ea)
  | .btstAa s aa n => (encBit 0x0B 0b00 aa (0#1 ++ encSpace s ++ 1#1) n, none)
  | .btstReg r n => (encBit 0x0B 0b11 (encReg r) 0b011 n, none)
  | .bchgPp s pp n => (encBit 0x0B 0b10 pp (0#1 ++ encSpace s ++ 0#1) n, none)
  | .bchgEa s ea n => (encBit 0x0B 0b01 (encEa ea) (0#1 ++ encSpace s ++ 0#1) n, extEa ea)
  | .bchgAa s aa n => (encBit 0x0B 0b00 aa (0#1 ++ encSpace s ++ 0#1) n, none)
  | .bchgReg r n => (encBit 0x0B 0b11 (encReg r) 0b010 n, none)
  | .bsetPp s pp n => (encBit 0x0A 0b10 pp (0#1 ++ encSpace s ++ 1#1) n, none)
  | .bsetEa s ea n => (encBit 0x0A 0b01 (encEa ea) (0#1 ++ encSpace s ++ 1#1) n, extEa ea)
  | .bsetAa s aa n => (encBit 0x0A 0b00 aa (0#1 ++ encSpace s ++ 1#1) n, none)
  | .bsetReg r n => (encBit 0x0A 0b11 (encReg r) 0b011 n, none)
  | .bclrPp s pp n => (encBit 0x0A 0b10 pp (0#1 ++ encSpace s ++ 0#1) n, none)
  | .bclrEa s ea n => (encBit 0x0A 0b01 (encEa ea) (0#1 ++ encSpace s ++ 0#1) n, extEa ea)
  | .bclrAa s aa n => (encBit 0x0A 0b00 aa (0#1 ++ encSpace s ++ 0#1) n, none)
  | .bclrReg r n => (encBit 0x0A 0b11 (encReg r) 0b010 n, none)
  | .movepEa ps pp es x =>
    (join24 (0b0000100#7 ++ encSpace ps) (encXferW x ++ 1#1 ++ encXfer x) (1#1 ++ encSpace es ++ pp), extXfer x)
  | .movepP ps pp w ea =>
    (join24 (0b0000100#7 ++ encSpace ps) (encDir w ++ 1#1 ++ encEa ea) (0b01#2 ++ pp), extEa ea)
  | .movepReg ps pp w r =>
    (join24 (0b0000100#7 ++ encSpace ps) (encDir w ++ 1#1 ++ encReg r) (0b00#2 ++ pp), none)
  | .movemEa w ea r => (join24 0x07 (encDir w ++ 1#1 ++ encEa ea) (0b10#2 ++ encReg r), extEa ea)
  | .movemAa w aa r => (join24 0x07 (encDir w ++ 0#1 ++ aa) (0b00#2 ++ encReg r), none)
  | .repImm c => (join24 0x06 (c.extractLsb' 0 8) (0b1010#4 ++ c.extractLsb' 8 4), none)
  | .repReg r => (join24 0x06 (0b11#2 ++ encReg r) 0x20, none)
  | .repEa s i => (join24 0x06 (0b01#2 ++ encInd i) (0#1 ++ encSpace s ++ 0b100000#6), none)
  | .repAa s aa => (join24 0x06 (0b00#2 ++ aa) (0#1 ++ encSpace s ++ 0b100000#6), none)
  | .doImm c t => (join24 0x06 (c.extractLsb' 0 8) (0b1000#4 ++ c.extractLsb' 8 4), some (wordOf t))
  | .doReg r t => (join24 0x06 (0b11#2 ++ encReg r) 0x00, some (wordOf t))
  | .doEa s i t => (join24 0x06 (0b01#2 ++ encInd i) (0#1 ++ encSpace s ++ 0b000000#6), some (wordOf t))
  | .doAa s aa t => (join24 0x06 (0b00#2 ++ aa) (0#1 ++ encSpace s ++ 0b000000#6), some (wordOf t))
  | .movecEa s x c =>
    (join24 0x05 (encXferW x ++ 1#1 ++ encXfer x) (0#1 ++ encSpace s ++ 1#1 ++ encCReg c), extXfer x)
  | .movecAa s w aa c => (join24 0x05 (encDir w ++ 0#1 ++ aa) (0#1 ++ encSpace s ++ 1#1 ++ encCReg c), none)
  | .movecReg w r c => (join24 0x04 (encDir w ++ 1#1 ++ encReg r) (0b101#3 ++ encCReg c), none)
  | .movecImm i c => (join24 0x05 i (0b101#3 ++ encCReg c), none)
  | .lua mm r d => (join24 0x04 (0b010#3 ++ encUMode mm ++ r) (0b0001#4 ++ encRN d), none)
  | .tcc k s d => (join24 0x02 (encCond k ++ 0#4) (0#1 ++ encTSrc s ++ encAcc d ++ 0#3), none)
  | .tccR k s d s2 d2 => (join24 0x03 (encCond k ++ 0#1 ++ s2) (0#1 ++ encTSrc s ++ encAcc d ++ d2), none)
  | .norm r d => (join24 0x01 (0b11011#5 ++ r) (0b0001#4 ++ encAcc d ++ 0b101#3), none)
  | .divStep s d => (join24 0x01 0x80 (0b01#2 ++ encWReg s ++ encAcc d ++ 0#3), none)
  | .macImm g q d sh => (join24 0x01 (0#3 ++ sh) (0b11#2 ++ q ++ encAcc d ++ bit1 g ++ 0b10#2), none)
  | .macrImm g q d sh => (join24 0x01 (0#3 ++ sh) (0b11#2 ++ q ++ encAcc d ++ bit1 g ++ 0b11#2), none)
  | .mpyImm g q d sh => (join24 0x01 (0#3 ++ sh) (0b11#2 ++ q ++ encAcc d ++ bit1 g ++ 0b00#2), none)
  | .mpyrImm g q d sh => (join24 0x01 (0#3 ++ sh) (0b11#2 ++ q ++ encAcc d ++ bit1 g ++ 0b01#2), none)
  | .debugcc k => (join24 0x00 0x03 (0#4 ++ encCond k), none)
  | .debug => (join24 0x00 0x02 0x00, none)
  | .ori i e => (join24 0x00 i (0b111110#6 ++ encImmDest e), none)
  | .andi i e => (join24 0x00 i (0b101110#6 ++ encImmDest e), none)
  | .enddo => (join24 0x00 0x00 0x8C, none)
  | .stop => (join24 0x00 0x00 0x87, none)
  | .wait => (join24 0x00 0x00 0x86, none)
  | .reset => (join24 0x00 0x00 0x84, none)
  | .rts => (join24 0x00 0x00 0x0C, none)
  | .dec d => (join24 0x00 0x00 (0b0000101#7 ++ encAcc d), none)
  | .inc d => (join24 0x00 0x00 (0b0000100#7 ++ encAcc d), none)
  | .swi => (join24 0x00 0x00 0x06, none)
  | .illegal => (join24 0x00 0x00 0x05, none)
  | .rti => (join24 0x00 0x00 0x04, none)
  | .nop => (join24 0x00 0x00 0x00, none)
  | .tfrAcc d mv => encPar mv (0b0000#4 ++ encAcc d ++ 1#3)
  | .addr d mv => encPar mv (0b0000#4 ++ encAcc d ++ 2#3)
  | .tst d mv => encPar mv (0b0000#4 ++ encAcc d ++ 3#3)
  | .cmpAcc d mv => encPar mv (0b0000#4 ++ encAcc d ++ 5#3)
  | .subr d mv => encPar mv (0b0000#4 ++ encAcc d ++ 6#3)
  | .cmpmAcc d mv => encPar mv (0b0000#4 ++ encAcc d ++ 7#3)
  | .addAcc d mv => encPar mv (0b0001#4 ++ encAcc d ++ 0#3)
  | .rnd d mv => encPar mv (0b0001#4 ++ encAcc d ++ 1#3)
  | .addl d mv => encPar mv (0b0001#4 ++ encAcc d ++ 2#3)
  | .clr d mv => encPar mv (0b0001#4 ++ encAcc d ++ 3#3)
  | .subAcc d mv => encPar mv (0b0001#4 ++ encAcc d ++ 4#3)
  | .subl d mv => encPar mv (0b0001#4 ++ encAcc d ++ 6#3)
  | .notAcc d mv => encPar mv (0b0001#4 ++ encAcc d ++ 7#3)
  | .addLong j d mv => encPar mv (0b001#3 ++ encLReg j ++ encAcc d ++ 0#3)
  | .adc j d mv => encPar mv (0b001#3 ++ encLReg j ++ encAcc d ++ 1#3)
  | .subLong j d mv => encPar mv (0b001#3 ++ encLReg j ++ encAcc d ++ 4#3)
  | .sbc j d mv => encPar mv (0b001#3 ++ encLReg j ++ encAcc d ++ 5#3)
  | .asr d mv => encPar mv (0b0010#4 ++ encAcc d ++ 2#3)
  | .lsr d mv => encPar mv (0b0010#4 ++ encAcc d ++ 3#3)
  | .absAcc d mv => encPar mv (0b0010#4 ++ encAcc d ++ 6#3)
  | .ror d mv => encPar mv (0b0010#4 ++ encAcc d ++ 7#3)
  | .asl d mv => encPar mv (0b0011#4 ++ encAcc d ++ 2#3)
  | .lsl d mv => encPar mv (0b0011#4 ++ encAcc d ++ 3#3)
  | .neg d mv => encPar mv (0b0011#4 ++ encAcc d ++ 6#3)
  | .rol d mv => encPar mv (0b0011#4 ++ encAcc d ++ 7#3)
  | .addWord w d mv => encPar mv (0b01#2 ++ encWReg w ++ encAcc d ++ 0#3)
  | .tfrWord w d mv => encPar mv (0b01#2 ++ encWReg w ++ encAcc d ++ 1#3)
  | .orWord w d mv => encPar mv (0b01#2 ++ encWReg w ++ encAcc d ++ 2#3)
  | .eorWord w d mv => encPar mv (0b01#2 ++ encWReg w ++ encAcc d ++ 3#3)
  | .subWord w d mv => encPar mv (0b01#2 ++ encWReg w ++ encAcc d ++ 4#3)
  | .cmpWord w d mv => encPar mv (0b01#2 ++ encWReg w ++ encAcc d ++ 5#3)
  | .andWord w d mv => encPar mv (0b01#2 ++ encWReg w ++ encAcc d ++ 6#3)
  | .cmpmWord w d mv => encPar mv (0b01#2 ++ encWReg w ++ encAcc d ++ 7#3)
  | .mpy g q d mv => encPar mv (1#1 ++ encMulPair q ++ encAcc d ++ bit1 g ++ 0b00#2)
  | .mpyr g q d mv => encPar mv (1#1 ++ encMulPair q ++ encAcc d ++ bit1 g ++ 0b01#2)
  | .mac g q d mv => encPar mv (1#1 ++ encMulPair q ++ encAcc d ++ bit1 g ++ 0b10#2)
  | .macr g q d mv => encPar mv (1#1 ++ encMulPair q ++ encAcc d ++ bit1 g ++ 0b11#2)
  | .moveNone => encPar .none 0
  | .moveImm d i => encPar (.imm d i) 0
  | .moveReg s d => encPar (.reg s d) 0
  | .moveUpd mm r => encPar (.upd mm r) 0
  | .moveXEa x r => encPar (.xEa x r) 0
  | .moveXAa w aa r => encPar (.xAa w aa r) 0
  | .moveYEa x r => encPar (.yEa x r) 0
  | .moveYAa w aa r => encPar (.yAa w aa r) 0
  | .moveLEa w ea l => encPar (.lEa w ea l) 0
  | .moveLAa w aa l => encPar (.lAa w aa l) 0
  | .moveXR ee x d f => encPar (.xr ee x d f) 0
  | .moveRY d e ff x => encPar (.ry d e ff x) 0
  | .moveXR2 d ea => encPar (.xr2 d ea) 0
  | .moveRY2 d ea => encPar (.ry2 d ea) 0
  | .moveXY wx ee mx rx wy ff my ry => encPar (.xy wx ee mx rx wy ff my ry) 0

end Sys2Proof
end

