-- ==== Sys2Proof/Config.lean ====
section
/-! DEFINITION. The free values: what the spec says the source does not determine (`draw` and `host_read`,
00_scope.md R17). Each is an uninterpreted constant with no body, so a claim holds whatever it is. -/

namespace Sys2Proof

/-- What a word of memory holds that nothing has written and that no image supplied:
`draw("uninit_mem", 24)` (20_memory.md R104, 92_eei_decisions.md D6; assumption 3). -/
opaque Config.uninitMem : Space → Addr → Word

/-- The platform's answer to the `k`-th question, when the question is `host_read(space, addr)`: any value
is possible (00_scope.md R8, 20_memory.md R104; assumption 4). -/
opaque Config.hostRead : DSpace → Addr → Nat → Word

/-- The high half of system-stack location 0, which is not storage, at the `k`-th question:
`draw("ss_empty", 16)` (10_state.md R51, 92_eei_decisions.md D16; assumption 5). -/
opaque Config.ssEmptyHi : Nat → Addr

/-- The low half of system-stack location 0 at the `k`-th question (10_state.md R51; assumption 5). -/
opaque Config.ssEmptyLo : Nat → Addr

/-- The platform's answer to `host_read("pending_after_stop")` at the `k`-th question: the maskable sources
that are pending when the stop state ends, one bit a source in the order IRQA, IRQB and then the
peripheral sources in vector order (41_program_control.md R268; assumption 4). -/
opaque Config.pendingAfterStop : Nat → BitVec 14

/-- The definitions of the S bit other than the default, by a number: S after an accumulator is read through the
limiter, from S before it, S1:S0 and the accumulator. The parameter `S_BIT_FN` picks one (10_state.md R66,
92_eei_decisions.md D2; assumption 10). -/
opaque Config.sBitFn : Nat → Bool → BitVec 2 → AccVal → Bool

end Sys2Proof
end

