-- ==== Sys2Proof/Machine/State.lean ====
section
/-! DEFINITION. The state of the machine (spec 10_state.md, 20_memory.md, 60_exceptions.md), the reasons a
step can stop, and the state after reset. Plain data only. INVENTORY.md lists every field with its rule. -/

namespace Sys2Proof.Machine

/-! ### Memory -/

/-- One memory space: (address, word) pairs with strictly rising addresses below 65536. An address that is
not listed holds a word that nothing has written (20_memory.md R100, R101, R104; assumptions 1, 3 and 6). -/
structure Memory where
  cells : List (Nat × Word)
deriving DecidableEq, Repr

/-- The pairs rise strictly, start at `lo` or above and stay below 65536. -/
def Memory.rising : Nat → List (Nat × Word) → Bool
  | _, [] => true
  | lo, (a, _) :: rest => decide (lo ≤ a) && decide (a < 65536) && Memory.rising (a + 1) rest

/-- The canonical form. -/
def Memory.wf (m : Memory) : Bool := Memory.rising 0 m.cells

/-! ### Hidden state -/

/-- The processing states (10_state.md R80, 00_scope.md R29). -/
inductive ProcState where
  | normal | exception | reset | wait | stop | debug
deriving DecidableEq, Repr

/-- The interrupt sources that have a pending flag (60_exceptions.md R503, R525). Hardware reset has none: it
acts at once (70_reset_and_hazards.md R560). -/
inductive Source where
  | illegal | nmi | stackError | trace | swi
  | irqa | irqb
  | ssiRx | ssiRxExc | ssiTx | ssiTxExc
  | sciRx | sciRxExc | sciTx | sciIdle | sciTimer
  | hostRx | hostTx | hostCmd
deriving DecidableEq, Repr

/-- The two words of an interrupt vector in progress: `in_fast_interrupt` (10_state.md R83), where the vector
stands, which of its words comes next and the level of the source (60_exceptions.md R508 to R510). -/
structure VecState where
  addr : Addr
  slot : BitVec 2
  level : BitVec 2
deriving DecidableEq, Repr

/-- What the "immediately before" checks need of the instruction executed before this one
(70_reset_and_hazards.md R566, R581). -/
structure Prev where
  /-- The program-controller register it wrote as BCHG, BCLR, BSET, MOVEC, MOVEM or MOVEP. -/
  wrote : Option CtlReg
  /-- It was MOVEC, MOVEM or MOVEP from SSH. -/
  fromSsh : Bool
  /-- It was ANDI MR or ORI MR. -/
  immMr : Bool
  /-- It was ANDI CCR or ORI CCR. -/
  immCcr : Bool
deriving DecidableEq, Repr

/-- "No previous instruction" (R560). -/
def Prev.none : Prev := { wrote := .none, fromSsh := false, immMr := false, immCcr := false }

/-- The REP state (10_state.md R81, 40_rep.md R236). -/
structure RepState where
  temp : Addr
  repeating : Bool
  word : Word
deriving DecidableEq, Repr

/-! ### The host interface (00_scope.md R8) -/

/-- An event from the platform. -/
inductive HostEvent where
  | resetPin
  | irqaLow
  | irqbLow
  | nmi
  /-- A request of a peripheral source. -/
  | irq (src : Source)
  | debugResume
  /-- Another bus master writes external memory (20_memory.md R145). -/
  | busWrite (sp : Space) (a : Addr) (v : Word)
deriving DecidableEq, Repr

/-- A message from the core to the platform. -/
inductive HostMsg where
  | read (sp : DSpace) (a : Addr)
  | write (sp : DSpace) (a : Addr) (v : Word)
  | peripheralReset
  | pendingQuery
  | debugRequest
deriving DecidableEq, Repr

/-- A range of external addresses: one piece of `IS_EXTERNAL` (R11). -/
structure ExtRange where
  space : Space
  first : Addr
  last : Addr
deriving DecidableEq, Repr

/-- The parameter `S_BIT_FN`: the default of 10_state.md R66, or another definition, of which nothing is known
(assumption 10). -/
inductive SBitFn where
  | family
  | other (k : Nat)
deriving DecidableEq, Repr

/-- The parameters of the implementation (R11). No step changes them. -/
structure Platform where
  hasDebugPort : Bool
  hasSBit : Bool
  hasDmBit : Bool
  /-- `S_BIT_FN` (10_state.md R66). -/
  sBitFn : SBitFn
  /-- `STACK_DEPTH`; SP[3:0] names no more than 15 locations (10_state.md R50 to R52; assumption 34). -/
  stackDepth : Fin 16
  modePins : BitVec 2
  resetVector : Addr
  /-- `VECTOR(source)`, in the order of `Source` (60_exceptions.md R525). -/
  vectors : Vector Addr 19
  /-- Where memory is external; it enters timing only (20_memory.md R106). -/
  external : List ExtRange
  stopShortDelay : Nat
  /-- The platform's order of the peripheral sources (60_exceptions.md R503). -/
  periphOrder : List Source
deriving DecidableEq, Repr

/-- The defaults of R11 and the vector table of R525 (assumption 9). -/
def Platform.default : Platform where
  hasDebugPort := false
  hasSBit := true
  hasDmBit := true
  sBitFn := .family
  stackDepth := 15
  modePins := 0
  resetVector := 0
  vectors := #v[0x3E, 0x1E, 0x02, 0x04, 0x06, 0x08, 0x0A, 0x0C, 0x0E, 0x10, 0x12, 0x14, 0x16, 0x18, 0x1A,
    0x1C, 0x20, 0x22, 0x24]
  external := []
  stopShortDelay := 6
  periphOrder := [.ssiRx, .ssiRxExc, .ssiTx, .ssiTxExc, .sciRx, .sciRxExc, .sciTx, .sciIdle, .sciTimer,
    .hostRx, .hostTx, .hostCmd]

/-! ### The state -/

/-- The data ALU (10_state.md R30 to R33). -/
structure DAlu where
  x0 : Word
  x1 : Word
  y0 : Word
  y1 : Word
  a : AccVal
  b : AccVal
deriving DecidableEq, Repr

/-- The address generation unit (R39). -/
structure Agu where
  r : Vector Addr 8
  n : Vector Addr 8
  m : Vector Addr 8
deriving DecidableEq, Repr

/-- The program controller (R43 to R52). `stack` holds locations 1 to 15, as pairs (high, low). -/
structure Ctl where
  pc : Addr
  sr : BitVec 16
  omr : BitVec 8
  sp : BitVec 6
  stack : Vector (Addr × Addr) 15
  la : Addr
  lc : Addr
deriving DecidableEq, Repr

/-- The three memory spaces (20_memory.md R100). -/
structure Mems where
  x : Memory
  y : Memory
  p : Memory
deriving DecidableEq, Repr

/-- The machine. -/
structure State where
  dalu : DAlu
  agu : Agu
  ctl : Ctl
  /-- Interrupt priority register, X:$FFFF (R53). -/
  ipr : BitVec 16
  /-- Port A bus control register, X:$FFFE (R54). -/
  bcr : BitVec 16
  mem : Mems
  /-- Processing state (R80). -/
  proc : ProcState
  /-- REP state (R81). -/
  rep : RepState
  /-- Pending flags in the order of `Source` (R82). -/
  pending : Vector Bool 19
  /-- The vector words in progress, if any (R83). -/
  vec : Option VecState
  /-- The instruction before (R84 a). -/
  prev : Prev
  /-- The AGU register a move-type instruction wrote in the instruction before (R84 b). -/
  aguWritten : Option Reg
  /-- Parameters (R11). -/
  plat : Platform
  /-- The model's own: events of the host, one slot for each step (assumption 8). -/
  inbox : List (List HostEvent)
  /-- The model's own: messages to the host, newest first (assumption 8). -/
  outbox : List HostMsg
  /-- The model's own: how many free values have been drawn (assumption 4). -/
  draws : Nat
  /-- The model's own: oscillator clock cycles, non-normative (assumption 31). -/
  clock : Nat
deriving DecidableEq, Repr

/-- The machine right after hardware reset, at the reset vector (10_state.md R90, 70_reset_and_hazards.md
R560; the registers that R90 leaves unspecified are 0 by assumption 2). -/
def State.reset : State where
  dalu := { x0 := 0, x1 := 0, y0 := 0, y1 := 0, a := 0, b := 0 }
  agu :=
    { r := #v[0, 0, 0, 0, 0, 0, 0, 0]
      n := #v[0, 0, 0, 0, 0, 0, 0, 0]
      m := #v[0xFFFF, 0xFFFF, 0xFFFF, 0xFFFF, 0xFFFF, 0xFFFF, 0xFFFF, 0xFFFF] }
  ctl :=
    { pc := 0, sr := 0x0300, omr := 0, sp := 0, la := 0, lc := 0
      stack := #v[(0, 0), (0, 0), (0, 0), (0, 0), (0, 0), (0, 0), (0, 0), (0, 0), (0, 0), (0, 0), (0, 0),
        (0, 0), (0, 0), (0, 0), (0, 0)] }
  ipr := 0
  bcr := 0xFFFF
  mem := { x := ⟨[]⟩, y := ⟨[]⟩, p := ⟨[]⟩ }
  proc := .normal
  rep := { temp := 0, repeating := false, word := 0 }
  pending := #v[false, false, false, false, false, false, false, false, false, false, false, false, false,
    false, false, false, false, false, false]
  vec := none
  prev := Prev.none
  aguWritten := none
  plat := Platform.default
  inbox := []
  outbox := []
  draws := 0
  clock := 0

/-! ### Why a step stops -/

/-- The restricted instruction sequences of A.9 (70_reset_and_hazards.md R566 to R581). -/
inductive Restriction where
  /-- A.9.1 at LA-2, LA-1 and LA (R567, R568; assumption 15). -/
  | nearLoopEnd
  /-- A.9.1 at LA (R569). -/
  | atLoopEnd
  /-- A.9.1: a subroutine jump to LA while LF = 1 (R570). -/
  | callToLoopEnd
  /-- A.9.2: immediately before DO (R571). -/
  | beforeDo
  /-- A.9.3: immediately before ENDDO (R572). -/
  | beforeEnddo
  /-- A.9.4: immediately before RTI or RTS (R573). -/
  | beforeReturn
  /-- A.9.5: SP written just before SSH or SSL is read (R574). -/
  | stackAccess
  /-- A.9.6: an AGU register used for address generation just after a move wrote it (R578). -/
  | aguDelay
  /-- A.9.7: not in a fast interrupt routine (R579). -/
  | fastInterrupt
deriving DecidableEq, Repr

/-- Dynamic stops: the program has left the behaviour the source defines, and the spec refuses to continue
(00_scope.md R9). Each is safe: the model stops where the hardware goes on in a way the source does not
define. -/
inductive Fault where
  /-- A forbidden sequence of A.9: raised by the check before each instruction, and by subroutine jumps. -/
  | restricted (r : Restriction)
  /-- S1:S0 = 11: raised by the data-ALU operations but ROL and ROR, and by the limiter (10_state.md R45,
  43_rotate.md R333; assumption 11). -/
  | scalingReserved
  /-- Mn from $8000 to $FFFE: raised by address arithmetic (20_memory.md R124). -/
  | modifierReserved
  /-- Rn outside its modulo buffer: raised by address arithmetic (R125). -/
  | outsideModulo
  /-- |Nn| above the modulus and no multiple of the block size: raised by address arithmetic (R125). -/
  | moduloOffset
  /-- A write of P memory into the two words after the writing instruction: raised by MOVEM and MOVEP (R112). -/
  | prefetchWrite
  /-- The word after REP cannot be repeated: raised by the first pass (40_rep.md R240). -/
  | notRepeatable
  /-- The repeated instruction writes LC: raised by the first pass (R242). -/
  | repeatWritesLc
  /-- A two-word instruction in the second word of an interrupt vector: raised by the step (60_exceptions.md
  R509; assumption 17). -/
  | vectorSecondWord
deriving DecidableEq, Repr

/-- Static stops: there is no meaning for the word. -/
inductive Refusal where
  /-- The instruction has no meaning in this model yet: raised by its arm of `exec`. Safe. -/
  | notModelled (mnemonic : String)
  /-- The word is no instruction: raised by the step (30_encoding.md R210). Safe: the spec refuses it. -/
  | undecodable (e : DecodeError)
  /-- MAC, MACR, MPY or MPYR by a power of two: raised by their meanings (47_nonparallel_encoding_only.md
  R472). Safe: the spec refuses them, since the source gives no operand tables. -/
  | powerOfTwoMultiply
deriving DecidableEq, Repr

end Sys2Proof.Machine
end

