-- ==== Sys2Proof/Machine/Ops.lean ====
section
/-! DEFINITION. The named operations over memory, the status register, the stack and the program counter,
taking an exception, and returning from one (spec 20_memory.md, 10_state.md, 60_exceptions.md). -/

namespace Sys2Proof.Machine

/-- What a meaning answers. -/
abbrev Result := Host.Outcome State Fault Refusal

/-- The outcome of a meaning that either gives a state or faults. -/
def finish : Except Fault State → Result
  | .ok s => .next s
  | .error f => .fault f

/-! ### Bits -/

/-- Bit `k` of a value replaced. -/
def putBit {n : Nat} (v : BitVec n) (k : Nat) (b : Bool) : BitVec n :=
  if b then v ||| BitVec.twoPow n k else v &&& ~~~ BitVec.twoPow n k

/-! ### Memory (20_memory.md R100, R104) -/

/-- The word listed for an address, if one is. -/
def lookupCell : List (Nat × Word) → Nat → Option Word
  | [], _ => none
  | (k, v) :: rest, a => if k = a then some v else lookupCell rest a

/-- The pairs with the word at one address replaced, in rising order. -/
def insertCell : List (Nat × Word) → Nat → Word → List (Nat × Word)
  | [], a, v => [(a, v)]
  | (k, w) :: rest, a, v =>
    if a < k then (a, v) :: (k, w) :: rest
    else if a = k then (a, v) :: rest
    else (k, w) :: insertCell rest a v

/-- A word of memory; one that nothing has written is `draw("uninit_mem", 24)` (R104; assumption 3). -/
def Memory.read (sp : Space) (m : Memory) (a : Addr) : Word :=
  (lookupCell m.cells a.toNat).getD (Config.uninitMem sp a)

/-- Memory with one word replaced. -/
def Memory.write (m : Memory) (a : Addr) (v : Word) : Memory := ⟨insertCell m.cells a.toNat v⟩

/-- One of the three spaces. -/
def Mems.get (m : Mems) : Space → Memory
  | .x => m.x
  | .y => m.y
  | .p => m.p

/-- One of the three spaces replaced. -/
def Mems.put (m : Mems) (sp : Space) (v : Memory) : Mems :=
  match sp with
  | .x => { m with x := v }
  | .y => { m with y := v }
  | .p => { m with p := v }

/-- The memory word at an address: `MemRead` outside the I/O range (R104). -/
def State.peek (sp : Space) (a : Addr) (s : State) : Word := (s.mem.get sp).read sp a

/-- The memory word at an address replaced: `MemWrite` outside the I/O range (R104). -/
def State.poke (sp : Space) (a : Addr) (v : Word) (s : State) : State :=
  { s with mem := s.mem.put sp ((s.mem.get sp).write a v) }

/-- The I/O short range, $FFC0 to $FFFF of X and Y (R103). -/
def isIo (a : Addr) : Bool := decide (0xFFC0 ≤ a.toNat)

/-- BCR's address, X:$FFFE (R107). -/
def bcrAddr : Addr := 0xFFFE

/-- IPR's address, X:$FFFF (R107). -/
def iprAddr : Addr := 0xFFFF

/-- A message to the platform (00_scope.md R8). -/
def State.tell (m : HostMsg) (s : State) : State := { s with outbox := m :: s.outbox }

/-- `host_read(space, addr)`: one message, and an answer that is a free value (R104, R115). -/
def State.hostRead (sp : DSpace) (a : Addr) (s : State) : Word × State :=
  (Config.hostRead sp a s.draws, { s.tell (.read sp a) with draws := s.draws + 1 })

/-- A read of X or Y at an address: memory, a core register, or the platform (R104, R107). -/
def State.loadData (sp : DSpace) (a : Addr) (s : State) : Word × State :=
  if isIo a then
    if sp = .x ∧ a = bcrAddr then (s.bcr.setWidth 24, s)
    else if sp = .x ∧ a = iprAddr then (s.ipr.setWidth 24, s)
    else s.hostRead sp a
  else (s.peek sp.toSpace a, s)

/-- A write of X or Y at an address (R104, R107). -/
def State.storeData (sp : DSpace) (a : Addr) (v : Word) (s : State) : State :=
  if isIo a then
    if sp = .x ∧ a = bcrAddr then { s with bcr := v.setWidth 16 }
    else if sp = .x ∧ a = iprAddr then { s with ipr := v.setWidth 16 }
    else s.tell (.write sp a v)
  else s.poke sp.toSpace a v

/-! ### The status register (10_state.md R44, R45) -/

/-- A bit of SR. -/
def State.srBit (k : Nat) (s : State) : Bool := s.ctl.sr.getLsbD k

/-- Loop flag. -/
def State.lf (s : State) : Bool := s.srBit 15

/-- Trace mode. -/
def State.tr (s : State) : Bool := s.srBit 13

/-- The interrupt mask I1:I0. -/
def State.imask (s : State) : BitVec 2 := s.ctl.sr.extractLsb' 8 2

/-- The SR bits that exist: bit 12 never, bits 7 and 14 where the part has them (R11, R45, R66). -/
def Platform.srMask (p : Platform) : BitVec 16 :=
  (if p.hasSBit then 0xFFFF else 0xFF7F) &&& (if p.hasDmBit then 0xEFFF else 0xAFFF)

/-- SR replaced; a bit that does not exist reads 0 (R45, R66). -/
def State.setSr (v : BitVec 16) (s : State) : State :=
  { s with ctl := { s.ctl with sr := v &&& s.plat.srMask } }

/-- The loop flag replaced. -/
def State.setLf (b : Bool) (s : State) : State := s.setSr (putBit s.ctl.sr 15 b)

/-! ### Pending flags (60_exceptions.md R503, R504) -/

/-- A source's place in the table of pending flags. -/
def Source.idx : Source → Fin 19
  | .illegal => 0
  | .nmi => 1
  | .stackError => 2
  | .trace => 3
  | .swi => 4
  | .irqa => 5
  | .irqb => 6
  | .ssiRx => 7
  | .ssiRxExc => 8
  | .ssiTx => 9
  | .ssiTxExc => 10
  | .sciRx => 11
  | .sciRxExc => 12
  | .sciTx => 13
  | .sciIdle => 14
  | .sciTimer => 15
  | .hostRx => 16
  | .hostTx => 17
  | .hostCmd => 18

/-- The sources in the order of the pending flags. -/
def allSources : List Source :=
  [.illegal, .nmi, .stackError, .trace, .swi, .irqa, .irqb, .ssiRx, .ssiRxExc, .ssiTx, .ssiTxExc, .sciRx,
   .sciRxExc, .sciTx, .sciIdle, .sciTimer, .hostRx, .hostTx, .hostCmd]

/-- The maskable sources (R503). -/
def Source.maskable (q : Source) : Bool := decide (5 ≤ q.idx.val)

/-- Is the source's interrupt pending? -/
def State.isPending (q : Source) (s : State) : Bool := s.pending[q.idx]

/-- `raise`: the source's pending flag is set (R504). -/
def State.pend (q : Source) (s : State) : State := { s with pending := s.pending.set q.idx true }

/-- The source's pending flag is cleared (R504). -/
def State.unpend (q : Source) (s : State) : State := { s with pending := s.pending.set q.idx false }

/-- The pending flags of the maskable sources are cleared (41_program_control.md R251, R268). -/
def State.clearMaskable (s : State) : State :=
  { s with pending := Vector.ofFn fun k => s.pending[k] && decide (k.val < 5) }

/-! ### The system stack (10_state.md R50 to R52) -/

/-- SP[3:0], the location in use. -/
def State.ssLoc (s : State) : BitVec 4 := s.ctl.sp.setWidth 4

/-- Does SP point to one of the locations `SS[1..STACK_DEPTH]`? (R51, R52; assumption 34) -/
def State.onStack (s : State) : Bool := s.ssLoc != 0 && decide (s.ssLoc.toNat ≤ s.plat.stackDepth.val)

/-- The stored pair of the location SP points to. -/
def State.ssPair (s : State) : Addr × Addr :=
  s.ctl.stack[s.ssLoc.toNat - 1]'(by have := s.ssLoc.isLt; omega)

/-- The stack location SP points to, as (SSH, SSL); location 0 is no storage and gives
`draw("ss_empty", 16)` twice (R51; assumption 5). -/
def State.ssTop (s : State) : (Addr × Addr) × State :=
  if s.onStack then (s.ssPair, s)
  else ((Config.ssEmptyHi s.draws, Config.ssEmptyLo s.draws), { s with draws := s.draws + 1 })

/-- The stack location SP points to replaced; a write to location 0 is lost (R51). -/
def State.setSsTop (v : Addr × Addr) (s : State) : State :=
  if s.onStack then { s with ctl := { s.ctl with
    stack := s.ctl.stack.set (s.ssLoc.toNat - 1) v (by have := s.ssLoc.isLt; omega) } }
  else s

/-- `SP <- SP + 1` on 6 bits; at location 15 the stack error is raised (R50, 60_exceptions.md R505). The six-bit
arithmetic is taken also where SE is 1 already: $1F goes to $20, which clears SE (assumption 29). -/
def State.incSp (s : State) : State :=
  let t := { s with ctl := { s.ctl with sp := s.ctl.sp + 1 } }
  if s.ssLoc = 15 then t.pend .stackError else t

/-- `SP <- SP - 1` on 6 bits; at location 0 the stack error is raised (R50, 60_exceptions.md R505). The six-bit
arithmetic is taken also where SE is 1 already: $10 goes to $0F, which clears SE (assumption 29). -/
def State.decSp (s : State) : State :=
  let t := { s with ctl := { s.ctl with sp := s.ctl.sp - 1 } }
  if s.ssLoc = 0 then t.pend .stackError else t

/-- `push(hi, lo)` (47_nonparallel_encoding_only.md R441). -/
def State.push (hi lo : Addr) (s : State) : State := s.incSp.setSsTop (hi, lo)

/-- `pull()`: (hi, lo) (R441). -/
def State.pull (s : State) : (Addr × Addr) × State := (s.ssTop.1, s.ssTop.2.decSp)

/-- SSH read as a source: `SP <- SP - 1` afterwards (10_state.md R51, R58). -/
def State.readSsh (s : State) : Addr × State := (s.ssTop.1.1, s.ssTop.2.decSp)

/-- SSH written as a destination: `SP <- SP + 1` first, then the high half (R51, R58). -/
def State.writeSsh (v : Addr) (s : State) : State :=
  s.incSp.setSsTop (v, s.incSp.ssPair.2)

/-- SSL read: SP does not move (R51). -/
def State.readSsl (s : State) : Addr × State := (s.ssTop.1.2, s.ssTop.2)

/-- SSL written: SP does not move (R51). -/
def State.writeSsl (v : Addr) (s : State) : State := s.setSsTop (s.ssPair.1, v)

/-! ### The program counter and the fetch stream -/

/-- PC replaced. -/
def State.setPc (a : Addr) (s : State) : State := { s with ctl := { s.ctl with pc := a } }

/-- The end of an instruction of `len` words that does not change flow: PC moves past it (10_state.md R43);
an instruction fetched from a vector leaves PC alone and uses up vector words (60_exceptions.md R508). -/
def State.advance (len : Nat) (s : State) : State :=
  match s.vec with
  | none => s.setPc (s.ctl.pc + BitVec.ofNat 16 len)
  | some v => { s with vec := some { v with slot := v.slot + BitVec.ofNat 2 len } }

/-- The addresses of the instruction word to fetch and of the word after it: at PC, or in the vector in
progress and then at PC (60_exceptions.md R508, R509). -/
def State.fetchAddrs (s : State) : Addr × Addr :=
  match s.vec with
  | none => (s.ctl.pc, s.ctl.pc + 1)
  | some v => if v.slot = 0 then (v.addr, v.addr + 1) else (v.addr + 1, s.ctl.pc)

/-- The addresses that follow an instruction of `len` words in the fetch stream, which a real pipeline holds
already; under REP the repeated word too (20_memory.md R112, 40_rep.md R237; assumption 24). -/
def State.prefetched (len : Nat) (s : State) : List Addr :=
  let held := if s.rep.repeating then [s.fetchAddrs.1] else []
  match s.vec with
  | none => held ++ [s.ctl.pc + BitVec.ofNat 16 len, s.ctl.pc + BitVec.ofNat 16 len + 1]
  | some v =>
    if v.slot = 0 ∧ len = 1 then held ++ [v.addr + 1, s.ctl.pc]
    else held ++ [s.ctl.pc, s.ctl.pc + 1]

/-- A write of P memory by an instruction of `len` words (R112). -/
def State.writeP (len : Nat) (a : Addr) (v : Word) (s : State) : Except Fault State :=
  if a ∈ s.prefetched len then .error .prefetchWrite else .ok (s.poke .p a v)

/-- A jump by an instruction of `len` words: `pc <- target`. In a vector a jump loads PC too, and the vector
word after it is still executed (60_exceptions.md R509; assumption 19). -/
def State.jump (len : Nat) (target : Addr) (s : State) : State := (s.advance len).setPc target

/-! ### Exceptions (60_exceptions.md R508 to R512) -/

/-- SR on entry to a long interrupt routine: LF, DM, T, S1 and S0 cleared, I1:I0 = min(level + 1, 3), the CCR
kept (R510). -/
def longSr (level : BitVec 2) (sr : BitVec 16) : BitVec 16 :=
  (sr &&& 0x10FF) ||| ((if level = 3 then 3#2 else level + 1).setWidth 16 <<< 8)

/-- Taking an exception, first half: the pending flag is cleared and the two words of the source's vector are
fetched in place of the next words of the program; nothing is saved and PC is not changed (R504, R508). -/
def State.service (q : Source) (level : BitVec 2) (s : State) : State :=
  { s.unpend q with
    vec := some { addr := s.plat.vectors[q.idx], slot := 0, level := level }
    proc := .exception }

/-- Taking an exception, second half: a subroutine jump in the vector forms a long interrupt: PC and SR are
pushed, SR changes by `longSr`, PC goes to the routine (R510). `saved` is SR as the instruction found it, whatever its
operand wrote there (00_scope.md R17). -/
def State.longInterrupt (v : VecState) (target : Addr) (saved : BitVec 16) (s : State) : State :=
  let t := s.push s.ctl.pc saved
  { (t.setSr (longSr v.level s.ctl.sr)).setPc target with vec := none, proc := .normal }

/-- The return from an exception: PC and SR are pulled from the system stack (41_program_control.md R254). -/
def State.returnInterrupt (s : State) : State :=
  let t := s.pull
  (t.2.setSr t.1.2).setPc t.1.1

/-- A subroutine jump by an instruction of `len` words: PC past the instruction and SR are pushed and PC goes
to the target (47_nonparallel_encoding_only.md R441, R468); in a vector it forms a long interrupt (R510). `saved` is
SR as the instruction found it: the writes of one instruction land together, so an operand's L and S reach SR and not
the stack (00_scope.md R17). A jump to LA while LF = 1 is forbidden (70_reset_and_hazards.md R570). -/
def State.call (len : Nat) (target : Addr) (saved : BitVec 16) (s : State) : Except Fault State :=
  if s.lf ∧ target = s.ctl.la then .error (.restricted .callToLoopEnd)
  else .ok <|
    match s.vec with
    | none => (s.push (s.ctl.pc + BitVec.ofNat 16 len) saved).setPc target
    | some v => s.longInterrupt v target saved

end Sys2Proof.Machine
end

