-- ==== Sys2Proof/Machine/Agu.lean ====
section
/-! DEFINITION. Address arithmetic: linear, reverse carry and modulo, governed by Mn
(spec 20_memory.md R124 to R126). -/

namespace Sys2Proof.Machine

/-- The size of the block a modulo buffer stands in: the least power of two not below M + 1 (R125). -/
def blockSize (m : Nat) : Nat := 2 ^ (m.log2 + 1)

/-- Modulo arithmetic for Mn = M, modulus M + 1: `t` is the exact sum (R125). -/
def moduloWrap (r m : Nat) (t : Int) : Addr :=
  let lo := r - r % blockSize m
  if (lo + m : Int) < t then BitVec.ofInt 16 (t - (m + 1))
  else if t < lo then BitVec.ofInt 16 (t + (m + 1))
  else BitVec.ofInt 16 t

/-- Rn plus a signed offset under Mn = M from 1 to $7FFF (R125). -/
def moduloAdd (r : Addr) (m : Nat) (k : Int) : Except Fault Addr :=
  if m < r.toNat % blockSize m then .error .outsideModulo
  else if k.natAbs ≤ m + 1 then .ok (moduloWrap r.toNat m (r.toNat + k))
  else if k.natAbs % blockSize m = 0 then .ok (r + BitVec.ofInt 16 k)
  else .error .moduloOffset

/-- Reverse-carry arithmetic: the carry runs from the most significant bit down (R124). -/
def reverseAdd (r k : Addr) (sub : Bool) : Addr :=
  if sub then (r.reverse - k.reverse).reverse else (r.reverse + k.reverse).reverse

/-- `agu(Rn, k, sign, Mn)`: Rn plus or minus `k` (1 or Nn, a signed offset), by Mn (R124, R126). -/
def aguAdd (r k : Addr) (sub : Bool) (m : Addr) : Except Fault Addr :=
  if m = 0xFFFF then .ok (if sub then r - k else r + k)
  else if m = 0 then .ok (reverseAdd r k sub)
  else if m.toNat < 0x8000 then moduloAdd r m.toNat (if sub then -k.toInt else k.toInt)
  else .error .modifierReserved

/-! ### The registers Rn, Nn, Mn (10_state.md R39) -/

/-- Rn. -/
def State.rReg (k : BitVec 3) (s : State) : Addr := s.agu.r[k.toNat]'k.isLt

/-- Nn. -/
def State.nReg (k : BitVec 3) (s : State) : Addr := s.agu.n[k.toNat]'k.isLt

/-- Mn. -/
def State.mReg (k : BitVec 3) (s : State) : Addr := s.agu.m[k.toNat]'k.isLt

/-- Rn replaced. -/
def State.setR (k : BitVec 3) (v : Addr) (s : State) : State :=
  { s with agu := { s.agu with r := s.agu.r.set k.toNat v k.isLt } }

/-- Nn replaced. -/
def State.setN (k : BitVec 3) (v : Addr) (s : State) : State :=
  { s with agu := { s.agu with n := s.agu.n.set k.toNat v k.isLt } }

/-- Mn replaced. -/
def State.setM (k : BitVec 3) (v : Addr) (s : State) : State :=
  { s with agu := { s.agu with m := s.agu.m.set k.toNat v k.isLt } }

/-! ### Addressing modes (20_memory.md R120) -/

/-- What a mode adds to Rn or takes from it: Rn afterwards for the update modes, the address for the indexed
mode (R120). -/
def aguStep (mode : AguMode) (r n m : Addr) : Except Fault Addr :=
  match mode with
  | .postSubN => aguAdd r n true m
  | .postAddN | .indexed => aguAdd r n false m
  | .postDec | .preDec => aguAdd r 1 true m
  | .postInc => aguAdd r 1 false m
  | .noUpdate => .ok r

/-- The value `aguStep` gives for the register set `k`. -/
def State.stepped (mode : AguMode) (k : BitVec 3) (s : State) : Except Fault Addr :=
  aguStep mode (s.rReg k) (s.nReg k) (s.mReg k)

/-- An indirect operand: the address used, and the state with Rn updated (R120). -/
def State.resolveInd (i : Ind) (s : State) : Except Fault (Addr × State) :=
  match s.stepped i.mode i.reg with
  | .error f => .error f
  | .ok t =>
    match i.mode with
    | .noUpdate => .ok (s.rReg i.reg, s)
    | .indexed => .ok (t, s)
    | .preDec => .ok (t, s.setR i.reg t)
    | .postSubN | .postAddN | .postDec | .postInc => .ok (s.rReg i.reg, s.setR i.reg t)

/-- An effective address: the address used, and the state with Rn updated (R120). -/
def State.resolve (ea : Ea) (s : State) : Except Fault (Addr × State) :=
  match ea with
  | .ind i => s.resolveInd i
  | .abs a => .ok (a, s)

end Sys2Proof.Machine
end

