-- ==== Sys2Proof/Machine/Flags.lean ====
section
/-! DEFINITION. The scaling mode, the condition codes, rounding, the shifter/limiter, and the conditions
(spec 10_state.md R35, R36, R60 to R74; 42_arithmetic.md R295). -/

namespace Sys2Proof.Machine

/-! ### Scaling mode -/

/-- The scaling modes S1:S0 = 00, 01 and 10 (10_state.md R45). -/
inductive ScaleMode where
  | off | down | up
deriving DecidableEq, Repr

/-- S1:S0 of a scaling mode (R45). -/
def ScaleMode.code : ScaleMode → BitVec 2
  | .off => 0
  | .down => 1
  | .up => 2

/-- The scaling mode of a status register; S1:S0 = 11 is reserved (R45; assumption 11). -/
def scaleOf (sr : BitVec 16) : Except Fault ScaleMode :=
  if sr.getLsbD 11 then (if sr.getLsbD 10 then .error .scalingReserved else .ok .up)
  else (if sr.getLsbD 10 then .ok .down else .ok .off)

/-- The scaling mode of the machine. -/
def State.scale (s : State) : Except Fault ScaleMode := scaleOf s.ctl.sr

/-! ### E, U and the test "extension in use" -/

/-- Are the bits of a field neither all 0 nor all 1? -/
def mixed {n : Nat} (v : BitVec n) : Bool := v != 0 && v != BitVec.allOnes n

/-- E: the signed integer portion is in use (R64); the same test makes the limiter act (R35). -/
def extInUse (m : ScaleMode) (r : AccVal) : Bool :=
  match m with
  | .off => mixed (r.extractLsb' 47 9)
  | .down => mixed (r.extractLsb' 48 8)
  | .up => mixed (r.extractLsb' 46 10)

/-- U: unnormalized (R65). -/
def unnormalized (m : ScaleMode) (r : AccVal) : Bool :=
  match m with
  | .off => r.getLsbD 47 == r.getLsbD 46
  | .down => r.getLsbD 48 == r.getLsbD 47
  | .up => r.getLsbD 46 == r.getLsbD 45

/-! ### The condition code register -/

/-- CCR, SR bits 7:0 (R44). -/
structure Ccr where
  s : Bool
  l : Bool
  e : Bool
  u : Bool
  n : Bool
  z : Bool
  v : Bool
  c : Bool
deriving DecidableEq, Repr

/-- The CCR of a status register. -/
def ccrOf (sr : BitVec 16) : Ccr where
  s := sr.getLsbD 7
  l := sr.getLsbD 6
  e := sr.getLsbD 5
  u := sr.getLsbD 4
  n := sr.getLsbD 3
  z := sr.getLsbD 2
  v := sr.getLsbD 1
  c := sr.getLsbD 0

/-- The CCR as eight bits, S first. -/
def Ccr.bits (k : Ccr) : BitVec 8 :=
  BitVec.ofBool k.s ++ BitVec.ofBool k.l ++ BitVec.ofBool k.e ++ BitVec.ofBool k.u ++
    BitVec.ofBool k.n ++ BitVec.ofBool k.z ++ BitVec.ofBool k.v ++ BitVec.ofBool k.c

/-- A status register with its CCR replaced. -/
def withCcr (sr : BitVec 16) (k : Ccr) : BitVec 16 := sr.extractLsb' 8 8 ++ k.bits

/-- The machine's CCR. -/
def State.ccr (s : State) : Ccr := ccrOf s.ctl.sr

/-- CCR replaced. -/
def State.setCcr (k : Ccr) (s : State) : State := s.setSr (withCcr s.ctl.sr k)

/-- The flags an instruction computes; `none` leaves a flag unchanged (00_scope.md R20). L is sticky: it
takes up V where V is computed (10_state.md R62). -/
structure FlagUpdate where
  e : Option Bool := none
  u : Option Bool := none
  n : Option Bool := none
  z : Option Bool := none
  v : Option Bool := none
  c : Option Bool := none
deriving DecidableEq, Repr

/-- The CCR after an update (R62, R71). -/
def Ccr.update (k : Ccr) (f : FlagUpdate) : Ccr where
  s := k.s
  l := k.l || f.v.getD false
  e := f.e.getD k.e
  u := f.u.getD k.u
  n := f.n.getD k.n
  z := f.z.getD k.z
  v := f.v.getD k.v
  c := f.c.getD k.c

/-- The computed flags written to the CCR. -/
def State.setFlags (f : FlagUpdate) (s : State) : State := s.setCcr (s.ccr.update f)

/-- `ccr_arith`: E, U, N, Z from the result, V, and C where it is written (R71). -/
def arithFlags (m : ScaleMode) (r : AccVal) (v : Bool) (c : Option Bool) : FlagUpdate where
  e := some (extInUse m r)
  u := some (unnormalized m r)
  n := some (r.getLsbD 55)
  z := some (r == 0)
  v := some v
  c := c

/-- The 24-bit logical flags: N and Z from bits 47:24, V cleared, E and U unchanged
(43_rotate.md R332, 46_data_alu_encoding_only.md R401). -/
def logicFlags (w : Word) (c : Option Bool) : FlagUpdate where
  n := some (w.getLsbD 23)
  z := some (w == 0)
  v := some false
  c := c

/-! ### Exact arithmetic on 56 bits -/

/-- Does an exact result not fit in 56 bits signed? (R69) -/
def overflow56 (t : Int) : Bool := decide (t < -(2 ^ 55) ∨ 2 ^ 55 ≤ t)

/-- A 56-bit result with its V and C. -/
structure Sum56 where
  r : AccVal
  v : Bool
  c : Bool
deriving DecidableEq, Repr

/-- `a + b + c`: V by the exact signed sum, C the carry out of bit 55 (R69, R70; R404). -/
def add56 (a b : AccVal) (c : Bool) : Sum56 where
  r := a + b + (BitVec.ofBool c).setWidth 56
  v := overflow56 (a.toInt + b.toInt + c.toNat)
  c := decide (2 ^ 56 ≤ a.toNat + b.toNat + c.toNat)

/-- `a - b - c`: V by the exact signed difference, C the borrow (R69, R70; 42_arithmetic.md R299). -/
def sub56 (a b : AccVal) (c : Bool) : Sum56 where
  r := a - b - (BitVec.ofBool c).setWidth 56
  v := overflow56 (a.toInt - b.toInt - c.toNat)
  c := decide (a.toNat < b.toNat + c.toNat)

/-! ### Rounding (42_arithmetic.md R295) -/

/-- The rounding position. -/
def roundPos : ScaleMode → Nat
  | .off => 23
  | .down => 24
  | .up => 22

/-- Convergent rounding: a 1 added at the rounding position; on a tie the bit to its left cleared; then the
bits from the rounding position down cleared. -/
def round56 (m : ScaleMode) (d : AccVal) : AccVal :=
  let p := roundPos m
  let t := d + BitVec.twoPow 56 p
  let t := if t.toNat % 2 ^ (p + 1) = 0 then putBit t (p + 1) false else t
  (t >>> (p + 1)) <<< (p + 1)

/-- V of a rounding: the exact sum does not fit (R296). -/
def roundV (m : ScaleMode) (d : AccVal) : Bool := overflow56 (d.toInt + 2 ^ roundPos m)

/-! ### The data shifter/limiter (10_state.md R35, R36, R66) -/

/-- The limiter's saturation word: $7FFFFF or $800000. -/
def satWord (acc : AccVal) : Word := if acc.getLsbD 55 then 0x800000 else 0x7FFFFF

/-- The 24-bit value of A or B as a move source (R35). -/
def limit24 (m : ScaleMode) (acc : AccVal) : Word :=
  if extInUse m acc then satWord acc
  else
    match m with
    | .off => acc.extractLsb' 24 24
    | .down => acc.extractLsb' 25 24
    | .up => acc.extractLsb' 23 24

/-- The 48-bit value of A or B as a source of an L: move (R36). -/
def limit48 (m : ScaleMode) (acc : AccVal) : Long :=
  if extInUse m acc then (if acc.getLsbD 55 then 0x800000000000 else 0x7FFFFFFFFFFF)
  else
    match m with
    | .off => acc.extractLsb' 0 48
    | .down => acc.extractLsb' 1 48
    | .up => acc.extractLsb' 0 47 ++ 0#1

/-- What a read of A or B through the limiter adds to S, the default of `S_BIT_FN` (R66; assumption 10). -/
def scaleBit (m : ScaleMode) (acc : AccVal) : Bool :=
  match m with
  | .off => acc.getLsbD 46 ^^ acc.getLsbD 45
  | .down => acc.getLsbD 47 ^^ acc.getLsbD 46
  | .up => acc.getLsbD 45 ^^ acc.getLsbD 44

/-- `S_BIT_FN`: S after a read of A or B through the limiter, from S before it (R66; assumption 10). -/
def SBitFn.next (f : SBitFn) (old : Bool) (m : ScaleMode) (acc : AccVal) : Bool :=
  match f with
  | .family => old || scaleBit m acc
  | .other k => Config.sBitFn k old m.code acc

/-- S and L after a move, REP or DO reads an accumulator through the limiter (R35, R66; 40_rep.md R234). -/
def State.limited (m : ScaleMode) (acc : AccVal) (s : State) : State :=
  s.setCcr { s.ccr with s := s.plat.sBitFn.next s.ccr.s m acc, l := s.ccr.l || extInUse m acc }

/-- L after a bit instruction reads an accumulator through the limiter: S is for moves (R66;
47_nonparallel_encoding_only.md R445; assumption 43). -/
def State.limitedL (m : ScaleMode) (acc : AccVal) (s : State) : State :=
  s.setCcr { s.ccr with l := s.ccr.l || extInUse m acc }

/-! ### Conditions (R74) -/

/-- The predicate of a condition on the CCR. -/
def condHolds (k : Cond) (f : Ccr) : Bool :=
  match k with
  | .cc => !f.c
  | .ge => !(f.n ^^ f.v)
  | .ne => !f.z
  | .pl => !f.n
  | .nn => !(f.z || (!f.u && !f.e))
  | .ec => !f.e
  | .lc => !f.l
  | .gt => !(f.z || (f.n ^^ f.v))
  | .cs => f.c
  | .lt => f.n ^^ f.v
  | .eq => f.z
  | .mi => f.n
  | .nr => f.z || (!f.u && !f.e)
  | .es => f.e
  | .ls => f.l
  | .le => f.z || (f.n ^^ f.v)

end Sys2Proof.Machine
end

