-- ==== Sys2Proof/Machine/Operands.lean ====
section
/-! DEFINITION. Operand forms: data-ALU operands, registers as move sources and destinations, memory and
immediate operands, bit operands (spec 10_state.md R31 to R38, R58; 20_memory.md R102, R122, R123;
47_nonparallel_encoding_only.md R442). -/

namespace Sys2Proof

/-- The accumulator that is not the given one (R187, source column of rows 000 and 001). -/
def Acc.other : Acc → Acc
  | .a => .b
  | .b => .a

/-- An update mode as an addressing mode (R129). -/
def UMode.toAguMode : UMode → AguMode
  | .subN => .postSubN
  | .addN => .postAddN
  | .dec => .postDec
  | .inc => .postInc

/-- An X:Y: mode as an addressing mode (R128). -/
def XYMode.toAguMode : XYMode → AguMode
  | .noUpdate => .noUpdate
  | .addN => .postAddN
  | .dec => .postDec
  | .inc => .postInc

end Sys2Proof

namespace Sys2Proof.Machine

/-! ### Data-ALU operands (10_state.md R34, 42_arithmetic.md R291) -/

/-- A 24-bit source as 56 bits: `sext_56(w : $000000)`. -/
def ext24 (w : Word) : AccVal := (w ++ 0#24).signExtend 56

/-- A 48-bit source as 56 bits. -/
def ext48 (v : Long) : AccVal := v.signExtend 56

/-- An accumulator. -/
def DAlu.acc (d : Acc) (u : DAlu) : AccVal :=
  match d with
  | .a => u.a
  | .b => u.b

/-- An accumulator, replaced. -/
def DAlu.setAcc (d : Acc) (v : AccVal) (u : DAlu) : DAlu :=
  match d with
  | .a => { u with a := v }
  | .b => { u with b := v }

/-- A 24-bit source register. -/
def DAlu.word (w : WReg) (u : DAlu) : Word :=
  match w with
  | .x0 => u.x0
  | .y0 => u.y0
  | .x1 => u.x1
  | .y1 => u.y1

/-- A 48-bit source: X = X1:X0 or Y = Y1:Y0 (10_state.md R31). -/
def DAlu.long (l : LReg) (u : DAlu) : Long :=
  match l with
  | .x => u.x1 ++ u.x0
  | .y => u.y1 ++ u.y0

/-- The two factors of a multiplier pair (30_encoding.md R186). -/
def DAlu.factors (q : MulPair) (u : DAlu) : Word × Word :=
  match q with
  | .x0x0 => (u.x0, u.x0)
  | .y0y0 => (u.y0, u.y0)
  | .x1x0 => (u.x1, u.x0)
  | .y1y0 => (u.y1, u.y0)
  | .x0y1 => (u.x0, u.y1)
  | .y0x0 => (u.y0, u.x0)
  | .x1y0 => (u.x1, u.y0)
  | .y1x1 => (u.y1, u.x1)

/-- An accumulator of the machine. -/
def State.acc (d : Acc) (s : State) : AccVal := s.dalu.acc d

/-- An accumulator of the machine, replaced. -/
def State.setAcc (d : Acc) (v : AccVal) (s : State) : State := { s with dalu := s.dalu.setAcc d v }

/-! ### The parts of an accumulator (10_state.md R16, R38) -/

/-- A1 or B1: bits 47:24. -/
def accMid (v : AccVal) : Word := v.extractLsb' 24 24

/-- A0 or B0: bits 23:0. -/
def accLow (v : AccVal) : Word := v.extractLsb' 0 24

/-- A2 or B2: bits 55:48. -/
def accExt (v : AccVal) : BitVec 8 := v.extractLsb' 48 8

/-- An accumulator from its three parts. -/
def accJoin (e : BitVec 8) (m l : Word) : AccVal := e ++ m ++ l

/-- A1 or B1 replaced. -/
def setMid (v : AccVal) (w : Word) : AccVal := accJoin (accExt v) w (accLow v)

/-! ### Registers as move sources and destinations (10_state.md R35, R37, R38, R58) -/

/-- A or B read as a move source, through the limiter (R35). -/
def State.readLimited (d : Acc) (s : State) : Except Fault (Word × State) :=
  match s.scale with
  | .error f => .error f
  | .ok m => .ok (limit24 m (s.acc d), s.limited m (s.acc d))

/-- A data-ALU register as a move source: A2 and B2 sign-extended, A and B through the limiter (R58). -/
def State.readD (x : DReg) (s : State) : Except Fault (Word × State) :=
  match x with
  | .x0 => .ok (s.dalu.x0, s)
  | .x1 => .ok (s.dalu.x1, s)
  | .y0 => .ok (s.dalu.y0, s)
  | .y1 => .ok (s.dalu.y1, s)
  | .a0 => .ok (accLow s.dalu.a, s)
  | .b0 => .ok (accLow s.dalu.b, s)
  | .a2 => .ok ((accExt s.dalu.a).signExtend 24, s)
  | .b2 => .ok ((accExt s.dalu.b).signExtend 24, s)
  | .a1 => .ok (accMid s.dalu.a, s)
  | .b1 => .ok (accMid s.dalu.b, s)
  | .a => s.readLimited .a
  | .b => s.readLimited .b

/-- A data-ALU register as a move destination (R38). -/
def DAlu.putD (x : DReg) (w : Word) (u : DAlu) : DAlu :=
  match x with
  | .x0 => { u with x0 := w }
  | .x1 => { u with x1 := w }
  | .y0 => { u with y0 := w }
  | .y1 => { u with y1 := w }
  | .a0 => { u with a := accJoin (accExt u.a) (accMid u.a) w }
  | .b0 => { u with b := accJoin (accExt u.b) (accMid u.b) w }
  | .a2 => { u with a := accJoin (w.setWidth 8) (accMid u.a) (accLow u.a) }
  | .b2 => { u with b := accJoin (w.setWidth 8) (accMid u.b) (accLow u.b) }
  | .a1 => { u with a := accJoin (accExt u.a) w (accLow u.a) }
  | .b1 => { u with b := accJoin (accExt u.b) w (accLow u.b) }
  | .a => { u with a := ext24 w }
  | .b => { u with b := ext24 w }

/-- A data-ALU register of the machine as a move destination. -/
def State.writeD (x : DReg) (w : Word) (s : State) : State := { s with dalu := s.dalu.putD x w }

/-- A program-controller register as a move source (R55, R58). -/
def State.readCtl (x : CtlReg) (s : State) : Word × State :=
  match x with
  | .sr => (s.ctl.sr.setWidth 24, s)
  | .omr => (s.ctl.omr.setWidth 24, s)
  | .sp => (s.ctl.sp.setWidth 24, s)
  | .ssh => (s.readSsh.1.setWidth 24, s.readSsh.2)
  | .ssl => (s.readSsl.1.setWidth 24, s.readSsl.2)
  | .la => (s.ctl.la.setWidth 24, s)
  | .lc => (s.ctl.lc.setWidth 24, s)

/-- A program-controller register as a move destination (R55, R58). -/
def State.writeCtl (x : CtlReg) (w : Word) (s : State) : State :=
  match x with
  | .sr => s.setSr (w.setWidth 16)
  | .omr => { s with ctl := { s.ctl with omr := w.setWidth 8 } }
  | .sp => { s with ctl := { s.ctl with sp := w.setWidth 6 } }
  | .ssh => s.writeSsh (w.setWidth 16)
  | .ssl => s.writeSsl (w.setWidth 16)
  | .la => { s with ctl := { s.ctl with la := w.setWidth 16 } }
  | .lc => { s with ctl := { s.ctl with lc := w.setWidth 16 } }

/-- `RegRead24` (R58). -/
def State.readReg (r : Reg) (s : State) : Except Fault (Word × State) :=
  match r with
  | .d x => s.readD x
  | .r k => .ok ((s.rReg k).setWidth 24, s)
  | .n k => .ok ((s.nReg k).setWidth 24, s)
  | .m k => .ok ((s.mReg k).setWidth 24, s)
  | .c x => .ok (s.readCtl x)

/-- `RegWrite24` (R58). -/
def State.writeReg (r : Reg) (w : Word) (s : State) : State :=
  match r with
  | .d x => s.writeD x w
  | .r k => s.setR k (w.setWidth 16)
  | .n k => s.setN k (w.setWidth 16)
  | .m k => s.setM k (w.setWidth 16)
  | .c x => s.writeCtl x w

/-! ### Memory and immediate operands (20_memory.md R102, R122, R123) -/

/-- `aaaaaa`: an address from $0000 to $003F (R123). -/
def shortAddr (aa : BitVec 6) : Addr := aa.setWidth 16

/-- `pppppp`: an I/O address from $FFC0 to $FFFF (R103, R123). -/
def ioAddr (pp : BitVec 6) : Addr := 0b1111111111#10 ++ pp

/-- A source operand: the memory word at an effective address, or the immediate datum (R122). -/
def State.loadEa (sp : DSpace) (src : EaImm) (s : State) : Except Fault (Word × State) :=
  match src with
  | .imm v => .ok (v, s)
  | .mem ea =>
    match s.resolve ea with
    | .error f => .error f
    | .ok (a, t) => .ok (t.loadData sp a)

/-- A store at an effective address (R120). -/
def State.storeEa (sp : DSpace) (ea : Ea) (v : Word) (s : State) : Except Fault State :=
  match s.resolve ea with
  | .error f => .error f
  | .ok (a, t) => .ok (t.storeData sp a v)

/-- The word of an immediate short move: a fraction in bits 23:16 for X0, X1, Y0, Y1, A and B, an unsigned
integer for the other registers (30_encoding.md R166, 45_parallel_moves.md R369). -/
def immShort (dst : Reg5) (i : BitVec 8) : Word :=
  match dst with
  | .d .x0 | .d .x1 | .d .y0 | .d .y1 | .d .a | .d .b => i ++ 0#16
  | _ => i.setWidth 24

/-! ### Bit operands (47_nonparallel_encoding_only.md R442) -/

/-- A or B as the operand of a bit instruction: through the limiter, which sets L and leaves S alone (R442, R445;
assumption 43). -/
def State.readBitAcc (d : Acc) (s : State) : Except Fault (Word × State) :=
  match s.scale with
  | .error f => .error f
  | .ok m => .ok (limit24 m (s.acc d), s.limitedL m (s.acc d))

/-- A register as the operand of a bit instruction: as a move source, but bits above the width of A2 and B2
read 0, and S stays (R442; assumptions 25 and 43). -/
def State.readBitReg (r : Reg) (s : State) : Except Fault (Word × State) :=
  match r with
  | .d .a2 => .ok ((accExt s.dalu.a).setWidth 24, s)
  | .d .b2 => .ok ((accExt s.dalu.b).setWidth 24, s)
  | .d .a => s.readBitAcc .a
  | .d .b => s.readBitAcc .b
  | _ => s.readReg r

end Sys2Proof.Machine
end

