-- ==== Sys2Proof/Machine/ParMoves.lean ====
section
/-! DEFINITION. The parallel data moves, the execution order of class P instructions, and the MOVE
instructions (spec 45_parallel_moves.md; 42_arithmetic.md R290; 46_data_alu_encoding_only.md R417). -/

namespace Sys2Proof.Machine

/-! ### Pieces of a move -/

/-- One side of a memory move, first half: the word that moves, from memory or from a register (R379). -/
def State.fetchSide (sp : DSpace) (w : Dir) (r : Reg) (a : Addr) (s : State) : Except Fault (Word × State) :=
  match w with
  | .toReg => .ok (s.loadData sp a)
  | .toMem => s.readReg r

/-- One side of a memory move, second half: the word written to the register or to memory (R379). -/
def State.storeSide (sp : DSpace) (w : Dir) (r : Reg) (a : Addr) (v : Word) (s : State) : State :=
  match w with
  | .toReg => s.writeReg r v
  | .toMem => s.storeData sp a v

/-- A transfer between a register and an effective address (R372, R373). The register is read before the
address register is updated (R361). -/
def State.moveEa (sp : DSpace) (x : Xfer) (r : Reg) (s : State) : Except Fault State :=
  match x with
  | .toReg src =>
    match s.loadEa sp src with
    | .error f => .error f
    | .ok (v, t) => .ok (t.writeReg r v)
  | .toMem dst =>
    match s.readReg r with
    | .error f => .error f
    | .ok (v, t) => t.storeEa sp dst v

/-- A transfer between a register and a fixed address (R372, R373). -/
def State.moveAt (sp : DSpace) (w : Dir) (a : Addr) (r : Reg) (s : State) : Except Fault State :=
  match s.fetchSide sp w r a with
  | .error f => .error f
  | .ok (v, t) => .ok (t.storeSide sp w r a v)

/-- The two words an L: operand gives, X word first (R374). -/
def State.readLong (l : LOp) (s : State) : Except Fault ((Word × Word) × State) :=
  match l with
  | .a10 => .ok ((accMid s.dalu.a, accLow s.dalu.a), s)
  | .b10 => .ok ((accMid s.dalu.b, accLow s.dalu.b), s)
  | .x => .ok ((s.dalu.x1, s.dalu.x0), s)
  | .y => .ok ((s.dalu.y1, s.dalu.y0), s)
  | .a => readAcc .a
  | .b => readAcc .b
  | .ab => readBoth .a .b
  | .ba => readBoth .b .a
where
  /-- All of an accumulator, through the 48-bit limiter (10_state.md R36). -/
  readAcc (d : Acc) : Except Fault ((Word × Word) × State) :=
    match s.scale with
    | .error f => .error f
    | .ok m =>
      let v := limit48 m (s.acc d)
      .ok ((v.extractLsb' 24 24, v.extractLsb' 0 24), s.limited m (s.acc d))
  /-- Both accumulators, each through the 24-bit limiter. -/
  readBoth (d e : Acc) : Except Fault ((Word × Word) × State) :=
    match s.readLimited d with
    | .error f => .error f
    | .ok (v, t) =>
      match t.readLimited e with
      | .error f => .error f
      | .ok (w, u) => .ok ((v, w), u)

/-- The two words written to an L: operand (R374). -/
def DAlu.putLong (l : LOp) (hi lo : Word) (u : DAlu) : DAlu :=
  match l with
  | .a10 => { u with a := accJoin (accExt u.a) hi lo }
  | .b10 => { u with b := accJoin (accExt u.b) hi lo }
  | .x => { u with x1 := hi, x0 := lo }
  | .y => { u with y1 := hi, y0 := lo }
  | .a => { u with a := ext48 (hi ++ lo) }
  | .b => { u with b := ext48 (hi ++ lo) }
  | .ab => { u with a := ext24 hi, b := ext24 lo }
  | .ba => { u with b := ext24 hi, a := ext24 lo }

/-- An L: operand read from the pair X:a, Y:a, X first (20_memory.md R102, R110). -/
def State.loadLong (a : Addr) (l : LOp) (s : State) : State :=
  let x := s.loadData .x a
  let y := x.2.loadData .y a
  { y.2 with dalu := y.2.dalu.putLong l x.1 y.1 }

/-- Two words written to the pair X:a, Y:a, X first (20_memory.md R102, R110). -/
def State.storeLong (a : Addr) (v : Word × Word) (s : State) : State :=
  (s.storeData .x a v.1).storeData .y a v.2

/-- The number of the Y side's address register: in the bank the X side's is not in (20_memory.md R128). -/
def otherBank (rx : BitVec 3) (ry : BitVec 2) : BitVec 3 := BitVec.ofBool (!rx.getLsbD 2) ++ ry

/-- An X:Y: double move: both addresses, then both words read, then both written (R379; 00_scope.md R22). -/
def State.moveXY (wx : Dir) (ee : XReg) (ix : Ind) (wy : Dir) (ff : YReg) (iy : Ind) (s : State) :
    Except Fault State :=
  match s.resolveInd ix with
  | .error f => .error f
  | .ok (ax, t) =>
    match t.resolveInd iy with
    | .error f => .error f
    | .ok (ay, u) =>
      match u.fetchSide .x wx (.d ee.toDReg) ax with
      | .error f => .error f
      | .ok (vx, u1) =>
        match u1.fetchSide .y wy (.d ff.toDReg) ay with
        | .error f => .error f
        | .ok (vy, u2) =>
          .ok ((u2.storeSide .x wx (.d ee.toDReg) ax vx).storeSide .y wy (.d ff.toDReg) ay vy)

/-! ### The move field (R368 to R379) -/

/-- The state after a parallel move. -/
def State.runMove (mv : ParMove) (s : State) : Except Fault State :=
  match mv with
  | .none => .ok s
  | .imm dst i => .ok (s.writeReg dst.toReg (immShort dst i))
  | .reg src dst =>
    match s.readReg src.toReg with
    | .error f => .error f
    | .ok (v, t) => .ok (t.writeReg dst.toReg v)
  | .upd mm r =>
    match s.stepped mm.toAguMode r with
    | .error f => .error f
    | .ok v => .ok (s.setR r v)
  | .xEa x r => s.moveEa .x x r.toReg
  | .xAa w aa r => s.moveAt .x w (shortAddr aa) r.toReg
  | .yEa x r => s.moveEa .y x r.toReg
  | .yAa w aa r => s.moveAt .y w (shortAddr aa) r.toReg
  | .lEa w ea l =>
    match w with
    | .toReg =>
      match s.resolve ea with
      | .error f => .error f
      | .ok (a, t) => .ok (t.loadLong a l)
    | .toMem =>
      match s.readLong l with
      | .error f => .error f
      | .ok (v, t) =>
        match t.resolve ea with
        | .error f => .error f
        | .ok (a, u) => .ok (u.storeLong a v)
  | .lAa w aa l =>
    match w with
    | .toReg => .ok (s.loadLong (shortAddr aa) l)
    | .toMem =>
      match s.readLong l with
      | .error f => .error f
      | .ok (v, t) => .ok (t.storeLong (shortAddr aa) v)
  | .xr ee x d f =>
    match s.readLimited d with
    | .error e => .error e
    | .ok (v, t) =>
      match t.moveEa .x x (.d ee.toDReg) with
      | .error e => .error e
      | .ok u => .ok (u.writeD f.toDReg v)
  | .ry d e ff x =>
    match s.readLimited d with
    | .error g => .error g
    | .ok (v, t) =>
      match t.moveEa .y x (.d ff.toDReg) with
      | .error g => .error g
      | .ok u => .ok (u.writeD e.toDReg v)
  | .xr2 d ea =>
    match s.readLimited d with
    | .error f => .error f
    | .ok (v, t) =>
      match t.storeEa .x ea v with
      | .error f => .error f
      | .ok u => .ok (u.writeD d.toDReg s.dalu.x0)
  | .ry2 d ea =>
    match s.readLimited d with
    | .error f => .error f
    | .ok (v, t) =>
      match t.storeEa .y ea v with
      | .error f => .error f
      | .ok u => .ok (u.writeD d.toDReg s.dalu.y0)
  | .xy wx ee mx rx wy ff my ry =>
    s.moveXY wx ee ⟨mx.toAguMode, rx⟩ wy ff ⟨my.toAguMode, otherBank rx ry⟩

/-! ### Class P instructions (42_arithmetic.md R290) -/

/-- What a data-ALU operation gives: the accumulator it writes and the flags it computes. -/
structure AluOut where
  dst : Option (Acc × AccVal) := none
  flags : Option FlagUpdate := none
deriving DecidableEq, Repr

/-- The results of a data-ALU operation written. -/
def State.putAlu (o : AluOut) (s : State) : State :=
  let t := match o.dst with
    | none => s
    | some (d, v) => s.setAcc d v
  match o.flags with
  | none => t
  | some f => t.setFlags f

/-- A data-ALU operation, computed from the old state, with its parallel move: the move reads the old state
too, its limiter contributes L and S, and then the operation's destination and flags are written (R290). -/
def parallel (alu : State → Except Fault AluOut) (mv : ParMove) (s : State) : Result :=
  match alu s with
  | .error f => .fault f
  | .ok o =>
    match s.runMove mv with
    | .error f => .fault f
    | .ok t => .next ((t.putAlu o).advance (1 + mv.extra))

/-! ### MOVE: the data ALU does nothing (46_data_alu_encoding_only.md R417) -/

/-- A move with no data-ALU operation. -/
def moveOnly (mv : ParMove) (s : State) : Result :=
  match s.runMove mv with
  | .error f => .fault f
  | .ok t => .next (t.advance (1 + mv.extra))

/-- MOVE with no move field (R368). -/
def execMoveNone (s : State) : Result := moveOnly .none s

/-- MOVE #xx,D (R369). -/
def execMoveImm (dst : Reg5) (i : BitVec 8) (s : State) : Result := moveOnly (.imm dst i) s

/-- MOVE S,D (R370). -/
def execMoveReg (src dst : Reg5) (s : State) : Result := moveOnly (.reg src dst) s

/-- MOVE ea: address register update (R371). -/
def execMoveUpd (mm : UMode) (r : BitVec 3) (s : State) : Result := moveOnly (.upd mm r) s

/-- MOVE X:ea,D and S,X:ea (R372). -/
def execMoveXEa (x : Xfer) (r : Reg5) (s : State) : Result := moveOnly (.xEa x r) s

/-- MOVE X:aa,D and S,X:aa (R372). -/
def execMoveXAa (w : Dir) (aa : BitVec 6) (r : Reg5) (s : State) : Result := moveOnly (.xAa w aa r) s

/-- MOVE Y:ea,D and S,Y:ea (R373). -/
def execMoveYEa (x : Xfer) (r : Reg5) (s : State) : Result := moveOnly (.yEa x r) s

/-- MOVE Y:aa,D and S,Y:aa (R373). -/
def execMoveYAa (w : Dir) (aa : BitVec 6) (r : Reg5) (s : State) : Result := moveOnly (.yAa w aa r) s

/-- MOVE L:ea,D and S,L:ea (R374). -/
def execMoveLEa (w : Dir) (ea : Ea) (l : LOp) (s : State) : Result := moveOnly (.lEa w ea l) s

/-- MOVE L:aa,D and S,L:aa (R374). -/
def execMoveLAa (w : Dir) (aa : BitVec 6) (l : LOp) (s : State) : Result := moveOnly (.lAa w aa l) s

/-- MOVE X:ea,D1 S2,D2 and S1,X:ea S2,D2 (R375). -/
def execMoveXR (ee : XReg) (x : Xfer) (d : Acc) (f : YSel) (s : State) : Result := moveOnly (.xr ee x d f) s

/-- MOVE S1,D1 Y:ea,D2 and S1,D1 S2,Y:ea (R376). -/
def execMoveRY (d : Acc) (e : XSel) (ff : YReg) (x : Xfer) (s : State) : Result := moveOnly (.ry d e ff x) s

/-- MOVE A,X:ea X0,A and B,X:ea X0,B (R377). -/
def execMoveXR2 (d : Acc) (ea : Ea) (s : State) : Result := moveOnly (.xr2 d ea) s

/-- MOVE Y0,A A,Y:ea and Y0,B B,Y:ea (R378). -/
def execMoveRY2 (d : Acc) (ea : Ea) (s : State) : Result := moveOnly (.ry2 d ea) s

/-- MOVE X:Y: (R379). -/
def execMoveXY (wx : Dir) (ee : XReg) (mx : XYMode) (rx : BitVec 3) (wy : Dir) (ff : YReg) (my : XYMode)
    (ry : BitVec 2) (s : State) : Result := moveOnly (.xy wx ee mx rx wy ff my ry) s

end Sys2Proof.Machine
end

