-- ==== Sys2Proof/Machine/Alu.lean ====
section
/-! DEFINITION. Data-ALU instructions without a multiplier: arithmetic, compare, shift, logic, transfer,
DIV, NORM, INC, DEC and Tcc (spec 42_arithmetic.md, 43_rotate.md, 44_transfer.md,
46_data_alu_encoding_only.md, 47_nonparallel_encoding_only.md). -/

namespace Sys2Proof.Machine

/-! ### Shared operations -/

/-- A data-ALU operation of a scaling mode; S1:S0 = 11 faults (10_state.md R45; assumption 11). -/
def withScale (f : ScaleMode → State → AluOut) (s : State) : Except Fault AluOut :=
  match s.scale with
  | .error e => .error e
  | .ok m => .ok (f m s)

/-- A sum or difference written to an accumulator, with all flags (10_state.md R71). -/
def sumOut (d : Acc) (q : Sum56) (m : ScaleMode) : AluOut where
  dst := some (d, q.r)
  flags := some (arithFlags m q.r q.v (some q.c))

/-- The flags of a difference; nothing is written (46_data_alu_encoding_only.md R410). -/
def cmpOut (q : Sum56) (m : ScaleMode) : AluOut where
  flags := some (arithFlags m q.r q.v (some q.c))

/-- `D + x + c` (46_data_alu_encoding_only.md R404). -/
def aluAdd (d : Acc) (x : State → AccVal) (c : State → Bool) : State → Except Fault AluOut :=
  withScale fun m s => sumOut d (add56 (s.acc d) (x s) (c s)) m

/-- `D - x - c` (42_arithmetic.md R299, R302). -/
def aluSub (d : Acc) (x : State → AccVal) (c : State → Bool) : State → Except Fault AluOut :=
  withScale fun m s => sumOut d (sub56 (s.acc d) (x s) (c s)) m

/-- The flags of `D - x` (46_data_alu_encoding_only.md R410). -/
def aluCmp (d : Acc) (x : State → AccVal) : State → Except Fault AluOut :=
  withScale fun m s => cmpOut (sub56 (s.acc d) (x s) false) m

/-- The magnitude of a 56-bit value (R402). -/
def abs56 (v : AccVal) : AccVal := if v.getLsbD 55 then 0 - v else v

/-- The flags of `|D| - |x|` (R411). -/
def aluCmpm (d : Acc) (x : State → AccVal) : State → Except Fault AluOut :=
  withScale fun m s => cmpOut (sub56 (abs56 (s.acc d)) (abs56 (x s)) false) m

/-- A result that leaves C unchanged (10_state.md R71). -/
def keepC (d : Acc) (r : AccVal) (v : Bool) (m : ScaleMode) : AluOut where
  dst := some (d, r)
  flags := some (arithFlags m r v none)

/-- Arithmetic shift left by one. -/
def asl1 (v : AccVal) : AccVal := v <<< 1

/-- Arithmetic shift right by one, bit 55 kept. -/
def asr1 (v : AccVal) : AccVal := v.sshiftRight 1

/-- The shift left changes bit 55 (42_arithmetic.md R311). -/
def aslV (v : AccVal) : Bool := v.getLsbD 55 ^^ v.getLsbD 54

/-- A 24-bit logical result in bits 47:24 of an accumulator (46_data_alu_encoding_only.md R401). -/
def logicOut (d : Acc) (old : AccVal) (w : Word) (c : Option Bool) : AluOut where
  dst := some (d, setMid old w)
  flags := some (logicFlags w c)

/-- The result of a 24-bit operation on bits 47:24 of an accumulator. -/
def midOut (d : Acc) (f : Word → State → Word × Option Bool) (s : State) : AluOut :=
  let q := f (accMid (s.acc d)) s
  logicOut d (s.acc d) q.1 q.2

/-- A 24-bit logical operation (46_data_alu_encoding_only.md R401). -/
def aluLogic (d : Acc) (f : Word → State → Word × Option Bool) : State → Except Fault AluOut :=
  withScale fun _ s => midOut d f s

/-- A rotation: the one data-ALU operation that runs in the reserved scaling mode (43_rotate.md R333). -/
def aluRotate (d : Acc) (f : Word → State → Word × Option Bool) (s : State) : Except Fault AluOut :=
  .ok (midOut d f s)

/-- A transfer to an accumulator: no flag of the operation's own (44_transfer.md R350, R351). -/
def aluTfr (d : Acc) (x : State → AccVal) : State → Except Fault AluOut :=
  withScale fun _ s => { dst := some (d, x s) }

/-- A data-ALU operation without a parallel move (class N). -/
def aluOnly (alu : State → Except Fault AluOut) (s : State) : Result :=
  match alu s with
  | .error f => .fault f
  | .ok o => .next ((s.putAlu o).advance 1)

/-! ### Transfer, add, subtract, compare -/

/-- TFR of the other accumulator (44_transfer.md R350). -/
def execTfrAcc (d : Acc) (mv : ParMove) (s : State) : Result :=
  parallel (aluTfr d fun s => s.acc d.other) mv s

/-- TFR of a 24-bit register (44_transfer.md R350, R343). -/
def execTfrWord (w : WReg) (d : Acc) (mv : ParMove) (s : State) : Result :=
  parallel (aluTfr d fun s => ext24 (s.dalu.word w)) mv s

/-- ADDR: `D / 2 + S` (46_data_alu_encoding_only.md R406). -/
def execAddr (d : Acc) (mv : ParMove) (s : State) : Result :=
  parallel (withScale fun m s => sumOut d (add56 (asr1 (s.acc d)) (s.acc d.other) false) m) mv s

/-- ADDL: `2 * D + S`; V also by the shift (R405). -/
def execAddl (d : Acc) (mv : ParMove) (s : State) : Result :=
  parallel (withScale fun m s =>
    let q := add56 (asl1 (s.acc d)) (s.acc d.other) false
    sumOut d { q with v := q.v || aslV (s.acc d) } m) mv s

/-- SUBR: `D / 2 - S` (42_arithmetic.md R316). -/
def execSubr (d : Acc) (mv : ParMove) (s : State) : Result :=
  parallel (withScale fun m s => sumOut d (sub56 (asr1 (s.acc d)) (s.acc d.other) false) m) mv s

/-- SUBL: `2 * D - S`; V also by the shift (42_arithmetic.md R308, R311, R312). -/
def execSubl (d : Acc) (mv : ParMove) (s : State) : Result :=
  parallel (withScale fun m s =>
    let q := sub56 (asl1 (s.acc d)) (s.acc d.other) false
    sumOut d { q with v := q.v || aslV (s.acc d) } m) mv s

/-- ADD of the other accumulator (46_data_alu_encoding_only.md R404). -/
def execAddAcc (d : Acc) (mv : ParMove) (s : State) : Result :=
  parallel (aluAdd d (fun s => s.acc d.other) fun _ => false) mv s

/-- ADD of X or Y (R404). -/
def execAddLong (l : LReg) (d : Acc) (mv : ParMove) (s : State) : Result :=
  parallel (aluAdd d (fun s => ext48 (s.dalu.long l)) fun _ => false) mv s

/-- ADD of a 24-bit register (R404). -/
def execAddWord (w : WReg) (d : Acc) (mv : ParMove) (s : State) : Result :=
  parallel (aluAdd d (fun s => ext24 (s.dalu.word w)) fun _ => false) mv s

/-- ADC (R403). -/
def execAdc (l : LReg) (d : Acc) (mv : ParMove) (s : State) : Result :=
  parallel (aluAdd d (fun s => ext48 (s.dalu.long l)) fun s => s.ccr.c) mv s

/-- SUB of the other accumulator (42_arithmetic.md R302). -/
def execSubAcc (d : Acc) (mv : ParMove) (s : State) : Result :=
  parallel (aluSub d (fun s => s.acc d.other) fun _ => false) mv s

/-- SUB of X or Y (42_arithmetic.md R302). -/
def execSubLong (l : LReg) (d : Acc) (mv : ParMove) (s : State) : Result :=
  parallel (aluSub d (fun s => ext48 (s.dalu.long l)) fun _ => false) mv s

/-- SUB of a 24-bit register (42_arithmetic.md R302, R303). -/
def execSubWord (w : WReg) (d : Acc) (mv : ParMove) (s : State) : Result :=
  parallel (aluSub d (fun s => ext24 (s.dalu.word w)) fun _ => false) mv s

/-- SBC (42_arithmetic.md R299). -/
def execSbc (l : LReg) (d : Acc) (mv : ParMove) (s : State) : Result :=
  parallel (aluSub d (fun s => ext48 (s.dalu.long l)) fun s => s.ccr.c) mv s

/-- CMP with the other accumulator (46_data_alu_encoding_only.md R410). -/
def execCmpAcc (d : Acc) (mv : ParMove) (s : State) : Result :=
  parallel (aluCmp d fun s => s.acc d.other) mv s

/-- CMP with a 24-bit register (R410). -/
def execCmpWord (w : WReg) (d : Acc) (mv : ParMove) (s : State) : Result :=
  parallel (aluCmp d fun s => ext24 (s.dalu.word w)) mv s

/-- CMPM with the other accumulator (R411). -/
def execCmpmAcc (d : Acc) (mv : ParMove) (s : State) : Result :=
  parallel (aluCmpm d fun s => s.acc d.other) mv s

/-- CMPM with a 24-bit register (R411). -/
def execCmpmWord (w : WReg) (d : Acc) (mv : ParMove) (s : State) : Result :=
  parallel (aluCmpm d fun s => ext24 (s.dalu.word w)) mv s

/-- TST: the flags of the accumulator itself (42_arithmetic.md R321). -/
def execTst (d : Acc) (mv : ParMove) (s : State) : Result :=
  parallel (withScale fun m s => { flags := some (arithFlags m (s.acc d) false none) }) mv s

/-! ### Operations on one accumulator -/

/-- RND: convergent rounding (42_arithmetic.md R294 to R296). -/
def execRnd (d : Acc) (mv : ParMove) (s : State) : Result :=
  parallel (withScale fun m s => keepC d (round56 m (s.acc d)) (roundV m (s.acc d)) m) mv s

/-- CLR: E, N and V cleared, U and Z set (46_data_alu_encoding_only.md R412). -/
def execClr (d : Acc) (mv : ParMove) (s : State) : Result :=
  parallel (withScale fun _ _ =>
    { dst := some (d, 0)
      flags := some { e := some false, u := some true, n := some false, z := some true, v := some false } }) mv s

/-- ABS: V only for the most negative value (R402). -/
def execAbs (d : Acc) (mv : ParMove) (s : State) : Result :=
  parallel (withScale fun m s => keepC d (abs56 (s.acc d)) (s.acc d == BitVec.twoPow 56 55) m) mv s

/-- NEG: V only for the most negative value (R416). -/
def execNeg (d : Acc) (mv : ParMove) (s : State) : Result :=
  parallel (withScale fun m s => keepC d (0 - s.acc d) (s.acc d == BitVec.twoPow 56 55) m) mv s

/-- ASL (R408). -/
def execAsl (d : Acc) (mv : ParMove) (s : State) : Result :=
  parallel (withScale fun m s =>
    sumOut d { r := asl1 (s.acc d), v := aslV (s.acc d), c := (s.acc d).getLsbD 55 } m) mv s

/-- ASR (R409). -/
def execAsr (d : Acc) (mv : ParMove) (s : State) : Result :=
  parallel (withScale fun m s =>
    sumOut d { r := asr1 (s.acc d), v := false, c := (s.acc d).getLsbD 0 } m) mv s

/-- NOT (R418). -/
def execNot (d : Acc) (mv : ParMove) (s : State) : Result :=
  parallel (aluLogic d fun w _ => (~~~ w, none)) mv s

/-- AND (R407). -/
def execAnd (w : WReg) (d : Acc) (mv : ParMove) (s : State) : Result :=
  parallel (aluLogic d fun v s => (v &&& s.dalu.word w, none)) mv s

/-- OR (R419). -/
def execOr (w : WReg) (d : Acc) (mv : ParMove) (s : State) : Result :=
  parallel (aluLogic d fun v s => (v ||| s.dalu.word w, none)) mv s

/-- EOR (R413). -/
def execEor (w : WReg) (d : Acc) (mv : ParMove) (s : State) : Result :=
  parallel (aluLogic d fun v s => (v ^^^ s.dalu.word w, none)) mv s

/-- LSL (R414). -/
def execLsl (d : Acc) (mv : ParMove) (s : State) : Result :=
  parallel (aluLogic d fun v _ => (v <<< 1, some (v.getLsbD 23))) mv s

/-- LSR (R415). -/
def execLsr (d : Acc) (mv : ParMove) (s : State) : Result :=
  parallel (aluLogic d fun v _ => (v >>> 1, some (v.getLsbD 0))) mv s

/-- ROL, through C (43_rotate.md R330, R332). -/
def execRol (d : Acc) (mv : ParMove) (s : State) : Result :=
  parallel (aluRotate d fun v s => (v.extractLsb' 0 23 ++ BitVec.ofBool s.ccr.c, some (v.getLsbD 23))) mv s

/-- ROR, through C (43_rotate.md R331, R332). -/
def execRor (d : Acc) (mv : ParMove) (s : State) : Result :=
  parallel (aluRotate d fun v s => (BitVec.ofBool s.ccr.c ++ v.extractLsb' 1 23, some (v.getLsbD 0))) mv s

/-! ### Class N data-ALU instructions (47_nonparallel_encoding_only.md R451 to R454) -/

/-- INC (R452). -/
def execInc (d : Acc) (s : State) : Result :=
  aluOnly (aluAdd d (fun _ => 1) fun _ => false) s

/-- DEC (R451). -/
def execDec (d : Acc) (s : State) : Result :=
  aluOnly (aluSub d (fun _ => 1) fun _ => false) s

/-- DIV: one step of a non-restoring division; only L, V and C change (R453). -/
def execDiv (w : WReg) (d : Acc) (s : State) : Result :=
  aluOnly (withScale fun _ s =>
    let old := s.acc d
    let src := s.dalu.word w
    let t : AccVal := old.extractLsb' 0 55 ++ BitVec.ofBool s.ccr.c
    let r := if old.getLsbD 55 ^^ src.getLsbD 23 then t + ext24 src else t - ext24 src
    { dst := some (d, r), flags := some { v := some (aslV old), c := some (!r.getLsbD 55) } }) s

/-- NORM: one step of normalisation, decided by E, U and Z as they stand (R454; assumption 38). -/
def execNorm (k : BitVec 3) (d : Acc) (s : State) : Result :=
  match s.scale with
  | .error f => .fault f
  | .ok m =>
    let old := s.acc d
    let f := s.ccr
    if !f.e && f.u && !f.z then
      .next (((s.putAlu (keepC d (asl1 old) (aslV old) m)).setR k (s.rReg k - 1)).advance 1)
    else if f.e then
      .next (((s.putAlu (keepC d (asr1 old) false m)).setR k (s.rReg k + 1)).advance 1)
    else .next ((s.putAlu (keepC d old false m)).advance 1)

/-! ### Tcc (44_transfer.md R340 to R343)

A move-type instruction (R344): the scaling mode plays no part (assumption 11). -/

/-- The value of S1. -/
def tccSource (src : TSrc) (d : Acc) (s : State) : AccVal :=
  match src with
  | .other => s.acc d.other
  | .word w => ext24 (s.dalu.word w)

/-- Tcc S1,D1 (R340). -/
def execTcc (k : Cond) (src : TSrc) (d : Acc) (s : State) : Result :=
  .next ((if condHolds k s.ccr then s.setAcc d (tccSource src d s) else s).advance 1)

/-- Tcc S1,D1 S2,D2 (R341). -/
def execTccR (k : Cond) (src : TSrc) (d : Acc) (s2 d2 : BitVec 3) (s : State) : Result :=
  .next ((if condHolds k s.ccr then (s.setAcc d (tccSource src d s)).setR d2 (s.rReg s2) else s).advance 1)

end Sys2Proof.Machine
end

