-- ==== Sys2Proof/Machine/BitOps.lean ====
section
/-! DEFINITION. Bit manipulation: BTST, BCHG, BCLR, BSET (spec 47_nonparallel_encoding_only.md R442, R445 to
R448; 20_memory.md R111). -/

namespace Sys2Proof.Machine

/-- The three bit instructions that write. -/
inductive BitOp where
  | chg | clr | set
deriving DecidableEq, Repr

/-- The new bit from the old one (R445 to R447). -/
def bitNew (op : BitOp) (old : Bool) : Bool :=
  match op with
  | .chg => !old
  | .clr => false
  | .set => true

/-- C takes the operand's bit; no other flag changes (R445). -/
def State.setC (b : Bool) (s : State) : State := s.setFlags { c := some b }

/-- A read-modify-write of one bit of a memory or I/O word, with C the bit before (R445; 20_memory.md R111). -/
def State.modifyMem (op : BitOp) (sp : DSpace) (a : Addr) (n : BitVec 5) (s : State) : State :=
  let q := s.loadData sp a
  let old := q.1.getLsbD n.toNat
  (q.2.storeData sp a (putBit q.1 n.toNat (bitNew op old))).setC old

/-- A read-modify-write of one bit of a register, with C the bit before. On SR only the one bit is written, after
C (R445; assumption 26). -/
def State.modifyReg (op : BitOp) (r : Reg) (n : BitVec 5) (s : State) : Except Fault State :=
  match s.readBitReg r with
  | .error f => .error f
  | .ok (v, t) =>
    let old := v.getLsbD n.toNat
    let u := t.setC old
    .ok (match r with
      | .c .sr => u.setSr (putBit u.ctl.sr n.toNat (bitNew op old))
      | _ => u.writeReg r (putBit v n.toNat (bitNew op old)))

/-- The end of a bit instruction of `len` words. -/
def endBit (len : Nat) (r : Except Fault State) : Result :=
  match r with
  | .error f => .fault f
  | .ok t => .next (t.advance len)

/-- A bit instruction on an effective address (20_memory.md R120). -/
def modifyEa (op : BitOp) (sp : DSpace) (ea : Ea) (n : BitVec 5) (s : State) : Result :=
  endBit (1 + ea.extra) <|
    match s.resolve ea with
    | .error f => .error f
    | .ok (a, t) => .ok (t.modifyMem op sp a n)

/-! ### BTST (R448) -/

/-- BTST of a memory or I/O word: nothing is written but C. -/
def State.testMem (sp : DSpace) (a : Addr) (n : BitVec 5) (s : State) : State :=
  let q := s.loadData sp a
  q.2.setC (q.1.getLsbD n.toNat)

/-- BTST #n,X:pp and Y:pp. -/
def execBtstPp (sp : DSpace) (pp : BitVec 6) (n : BitVec 5) (s : State) : Result :=
  endBit 1 (.ok (s.testMem sp (ioAddr pp) n))

/-- BTST #n,X:ea and Y:ea. -/
def execBtstEa (sp : DSpace) (ea : Ea) (n : BitVec 5) (s : State) : Result :=
  endBit (1 + ea.extra) <|
    match s.resolve ea with
    | .error f => .error f
    | .ok (a, t) => .ok (t.testMem sp a n)

/-- BTST #n,X:aa and Y:aa. -/
def execBtstAa (sp : DSpace) (aa : BitVec 6) (n : BitVec 5) (s : State) : Result :=
  endBit 1 (.ok (s.testMem sp (shortAddr aa) n))

/-- BTST #n,D. Reading SSH pulls the stack. -/
def execBtstReg (r : Reg) (n : BitVec 5) (s : State) : Result :=
  endBit 1 <|
    match s.readBitReg r with
    | .error f => .error f
    | .ok (v, t) => .ok (t.setC (v.getLsbD n.toNat))

/-! ### BCHG (R445) -/

/-- BCHG #n,X:pp and Y:pp. -/
def execBchgPp (sp : DSpace) (pp : BitVec 6) (n : BitVec 5) (s : State) : Result :=
  endBit 1 (.ok (s.modifyMem .chg sp (ioAddr pp) n))

/-- BCHG #n,X:ea and Y:ea. -/
def execBchgEa (sp : DSpace) (ea : Ea) (n : BitVec 5) (s : State) : Result := modifyEa .chg sp ea n s

/-- BCHG #n,X:aa and Y:aa. -/
def execBchgAa (sp : DSpace) (aa : BitVec 6) (n : BitVec 5) (s : State) : Result :=
  endBit 1 (.ok (s.modifyMem .chg sp (shortAddr aa) n))

/-- BCHG #n,D. -/
def execBchgReg (r : Reg) (n : BitVec 5) (s : State) : Result := endBit 1 (s.modifyReg .chg r n)

/-! ### BSET (R447) -/

/-- BSET #n,X:pp and Y:pp. -/
def execBsetPp (sp : DSpace) (pp : BitVec 6) (n : BitVec 5) (s : State) : Result :=
  endBit 1 (.ok (s.modifyMem .set sp (ioAddr pp) n))

/-- BSET #n,X:ea and Y:ea. -/
def execBsetEa (sp : DSpace) (ea : Ea) (n : BitVec 5) (s : State) : Result := modifyEa .set sp ea n s

/-- BSET #n,X:aa and Y:aa. -/
def execBsetAa (sp : DSpace) (aa : BitVec 6) (n : BitVec 5) (s : State) : Result :=
  endBit 1 (.ok (s.modifyMem .set sp (shortAddr aa) n))

/-- BSET #n,D. -/
def execBsetReg (r : Reg) (n : BitVec 5) (s : State) : Result := endBit 1 (s.modifyReg .set r n)

/-! ### BCLR (R446) -/

/-- BCLR #n,X:pp and Y:pp. -/
def execBclrPp (sp : DSpace) (pp : BitVec 6) (n : BitVec 5) (s : State) : Result :=
  endBit 1 (.ok (s.modifyMem .clr sp (ioAddr pp) n))

/-- BCLR #n,X:ea and Y:ea. -/
def execBclrEa (sp : DSpace) (ea : Ea) (n : BitVec 5) (s : State) : Result := modifyEa .clr sp ea n s

/-- BCLR #n,X:aa and Y:aa. -/
def execBclrAa (sp : DSpace) (aa : BitVec 6) (n : BitVec 5) (s : State) : Result :=
  endBit 1 (.ok (s.modifyMem .clr sp (shortAddr aa) n))

/-- BCLR #n,D. -/
def execBclrReg (r : Reg) (n : BitVec 5) (s : State) : Result := endBit 1 (s.modifyReg .clr r n)

end Sys2Proof.Machine
end

