-- ==== Sys2Proof/Machine/Control.lean ====
section
/-! DEFINITION. Immediate logic on control registers, returns, and the system instructions
(spec 41_program_control.md; 47_nonparallel_encoding_only.md R443, R444, R449, R450, R456, R479). -/

namespace Sys2Proof.Machine

/-- MR, CCR or OMR changed by a function of its eight bits (R443, R444). -/
def State.modifyCtl8 (d : ImmDest) (f : BitVec 8 → BitVec 8) (s : State) : State :=
  match d with
  | .mr => s.setSr (f (s.ctl.sr.extractLsb' 8 8) ++ s.ctl.sr.extractLsb' 0 8)
  | .ccr => s.setSr (s.ctl.sr.extractLsb' 8 8 ++ f (s.ctl.sr.extractLsb' 0 8))
  | .omr => { s with ctl := { s.ctl with omr := f s.ctl.omr } }

/-- ANDI (R443). -/
def execAndi (i : BitVec 8) (d : ImmDest) (s : State) : Result :=
  .next ((s.modifyCtl8 d fun v => v &&& i).advance 1)

/-- ORI (R444). -/
def execOri (i : BitVec 8) (d : ImmDest) (s : State) : Result :=
  .next ((s.modifyCtl8 d fun v => v ||| i).advance 1)

/-- RTI: PC and SR pulled (41_program_control.md R254). -/
def execRti (s : State) : Result := .next s.returnInterrupt

/-- RTS: PC pulled, the low half discarded (41_program_control.md R258). -/
def execRts (s : State) : Result := .next (s.pull.2.setPc s.pull.1.1)

/-- SWI: its interrupt is raised; PC has moved past it (41_program_control.md R262; 60_exceptions.md R520). -/
def execSwi (s : State) : Result := .next ((s.pend .swi).advance 1)

/-- ILLEGAL: its interrupt is raised (47_nonparallel_encoding_only.md R456; 60_exceptions.md R521). -/
def execIllegal (s : State) : Result := .next ((s.pend .illegal).advance 1)

/-- RESET: IPR cleared, the peripherals reset, the maskable requests dropped
(41_program_control.md R250, R251). -/
def execReset (s : State) : Result :=
  .next (({ s.clearMaskable.tell .peripheralReset with ipr := 0 } : State).advance 1)

/-- STOP (41_program_control.md R266). -/
def execStop (s : State) : Result := .next ({ s.advance 1 with proc := .stop })

/-- WAIT (41_program_control.md R276). -/
def execWait (s : State) : Result := .next ({ s.advance 1 with proc := .wait })

/-- The debug state, where the part has a debug port; else nothing (60_exceptions.md R545). -/
def State.enterDebug (s : State) : State :=
  if s.plat.hasDebugPort then { s.tell .debugRequest with proc := .debug } else s

/-- DEBUG (47_nonparallel_encoding_only.md R449). -/
def execDebug (s : State) : Result := .next (s.enterDebug.advance 1)

/-- DEBUGcc (47_nonparallel_encoding_only.md R450). -/
def execDebugcc (k : Cond) (s : State) : Result :=
  .next ((if condHolds k s.ccr then s.enterDebug else s).advance 1)

/-- NOP (47_nonparallel_encoding_only.md R479). -/
def execNop (s : State) : Result := .next (s.advance 1)

end Sys2Proof.Machine
end

