-- ==== Sys2Proof/Machine/Jumps.lean ====
section
/-! DEFINITION. Jumps, subroutine jumps and bit-test jumps (spec 47_nonparallel_encoding_only.md R465 to
R474; 20_memory.md R132). -/

namespace Sys2Proof.Machine

/-- The target of the 12-bit short forms (20_memory.md R123). -/
def shortTarget (a : BitVec 12) : Addr := a.setWidth 16

/-- The end of a jump. -/
def endJump (r : Except Fault State) : Result :=
  match r with
  | .error f => .fault f
  | .ok t => .next t

/-- A jump taken if `b`, else the end of an instruction of `len` words. -/
def State.jumpIf (b : Bool) (len : Nat) (target : Addr) (s : State) : State :=
  if b then s.jump len target else s.advance len

/-- A subroutine jump taken if `b`, with `saved` for the SR it pushes, else the end of an instruction of `len`
words. -/
def State.callIf (b : Bool) (len : Nat) (target : Addr) (saved : BitVec 16) (s : State) : Except Fault State :=
  if b then s.call len target saved else .ok (s.advance len)

/-! ### JMP, Jcc, JSR, JScc (R466 to R469) -/

/-- JMP xxx. -/
def execJmpShort (a : BitVec 12) (s : State) : Result := endJump (.ok (s.jump 1 (shortTarget a)))

/-- JMP ea. -/
def execJmpEa (ea : Ea) (s : State) : Result :=
  endJump <|
    match s.resolve ea with
    | .error f => .error f
    | .ok (a, t) => .ok (t.jump (1 + ea.extra) a)

/-- Jcc xxx. -/
def execJccShort (k : Cond) (a : BitVec 12) (s : State) : Result :=
  endJump (.ok (s.jumpIf (condHolds k s.ccr) 1 (shortTarget a)))

/-- Jcc ea: the address register is updated whether or not the jump is taken. -/
def execJccEa (k : Cond) (ea : Ea) (s : State) : Result :=
  endJump <|
    match s.resolve ea with
    | .error f => .error f
    | .ok (a, t) => .ok (t.jumpIf (condHolds k s.ccr) (1 + ea.extra) a)

/-- JSR xxx. -/
def execJsrShort (a : BitVec 12) (s : State) : Result := endJump (s.call 1 (shortTarget a) s.ctl.sr)

/-- JSR ea. -/
def execJsrEa (ea : Ea) (s : State) : Result :=
  endJump <|
    match s.resolve ea with
    | .error f => .error f
    | .ok (a, t) => t.call (1 + ea.extra) a s.ctl.sr

/-- JScc xxx. -/
def execJsccShort (k : Cond) (a : BitVec 12) (s : State) : Result :=
  endJump (s.callIf (condHolds k s.ccr) 1 (shortTarget a) s.ctl.sr)

/-- JScc ea: the address register is updated whether or not the jump is taken. -/
def execJsccEa (k : Cond) (ea : Ea) (s : State) : Result :=
  endJump <|
    match s.resolve ea with
    | .error f => .error f
    | .ok (a, t) => t.callIf (condHolds k s.ccr) (1 + ea.extra) a s.ctl.sr

/-! ### Bit-test jumps (R470 to R474) -/

/-- The bit a bit-test jump tests, from a memory or I/O word; an I/O word is read once (20_memory.md R115). -/
def State.bitAt (sp : DSpace) (a : Addr) (n : BitVec 5) (s : State) : Bool × State :=
  let q := s.loadData sp a
  (q.1.getLsbD n.toNat, q.2)

/-- The bit a bit-test jump tests, from an indirect operand. -/
def State.bitInd (sp : DSpace) (i : Ind) (n : BitVec 5) (s : State) : Except Fault (Bool × State) :=
  match s.resolveInd i with
  | .error f => .error f
  | .ok (a, t) => .ok (t.bitAt sp a n)

/-- The bit a bit-test jump tests, from a register; reading SSH pulls the stack, before JSCLR and JSSET push
(assumption 27). -/
def State.bitOfReg (r : Reg) (n : BitVec 5) (s : State) : Except Fault (Bool × State) :=
  match s.readBitReg r with
  | .error f => .error f
  | .ok (v, t) => .ok (v.getLsbD n.toNat, t)

/-- JCLR and JSET: jump if the bit is `want`. -/
def bitJump (want : Bool) (target : Addr) (b : Except Fault (Bool × State)) : Result :=
  endJump <|
    match b with
    | .error f => .error f
    | .ok (v, t) => .ok (t.jumpIf (v == want) 2 target)

/-- JSCLR and JSSET: jump to a subroutine if the bit is `want`. `saved` is SR before the instruction, which is what
the stack gets; the L of the operand's limiter reaches SR alone (00_scope.md R17). -/
def bitCall (want : Bool) (target : Addr) (saved : BitVec 16) (b : Except Fault (Bool × State)) : Result :=
  endJump <|
    match b with
    | .error f => .error f
    | .ok (v, t) => t.callIf (v == want) 2 target saved

/-- JCLR #n,X:pp and Y:pp (R470). -/
def execJclrPp (sp : DSpace) (pp : BitVec 6) (n : BitVec 5) (t : Addr) (s : State) : Result :=
  bitJump false t (.ok (s.bitAt sp (ioAddr pp) n))

/-- JCLR #n,X:ea and Y:ea (R470). -/
def execJclrEa (sp : DSpace) (i : Ind) (n : BitVec 5) (t : Addr) (s : State) : Result :=
  bitJump false t (s.bitInd sp i n)

/-- JCLR #n,X:aa and Y:aa (R470). -/
def execJclrAa (sp : DSpace) (aa : BitVec 6) (n : BitVec 5) (t : Addr) (s : State) : Result :=
  bitJump false t (.ok (s.bitAt sp (shortAddr aa) n))

/-- JCLR #n,S (R470). -/
def execJclrReg (r : Reg) (n : BitVec 5) (t : Addr) (s : State) : Result :=
  bitJump false t (s.bitOfReg r n)

/-- JSET #n,X:pp and Y:pp (R471). -/
def execJsetPp (sp : DSpace) (pp : BitVec 6) (n : BitVec 5) (t : Addr) (s : State) : Result :=
  bitJump true t (.ok (s.bitAt sp (ioAddr pp) n))

/-- JSET #n,X:ea and Y:ea (R471). -/
def execJsetEa (sp : DSpace) (i : Ind) (n : BitVec 5) (t : Addr) (s : State) : Result :=
  bitJump true t (s.bitInd sp i n)

/-- JSET #n,X:aa and Y:aa (R471). -/
def execJsetAa (sp : DSpace) (aa : BitVec 6) (n : BitVec 5) (t : Addr) (s : State) : Result :=
  bitJump true t (.ok (s.bitAt sp (shortAddr aa) n))

/-- JSET #n,S (R471). -/
def execJsetReg (r : Reg) (n : BitVec 5) (t : Addr) (s : State) : Result :=
  bitJump true t (s.bitOfReg r n)

/-- JSCLR #n,X:pp and Y:pp (R473). -/
def execJsclrPp (sp : DSpace) (pp : BitVec 6) (n : BitVec 5) (t : Addr) (s : State) : Result :=
  bitCall false t s.ctl.sr (.ok (s.bitAt sp (ioAddr pp) n))

/-- JSCLR #n,X:ea and Y:ea (R473). -/
def execJsclrEa (sp : DSpace) (i : Ind) (n : BitVec 5) (t : Addr) (s : State) : Result :=
  bitCall false t s.ctl.sr (s.bitInd sp i n)

/-- JSCLR #n,X:aa and Y:aa (R473). -/
def execJsclrAa (sp : DSpace) (aa : BitVec 6) (n : BitVec 5) (t : Addr) (s : State) : Result :=
  bitCall false t s.ctl.sr (.ok (s.bitAt sp (shortAddr aa) n))

/-- JSCLR #n,S (R473). -/
def execJsclrReg (r : Reg) (n : BitVec 5) (t : Addr) (s : State) : Result :=
  bitCall false t s.ctl.sr (s.bitOfReg r n)

/-- JSSET #n,X:pp and Y:pp (R474). -/
def execJssetPp (sp : DSpace) (pp : BitVec 6) (n : BitVec 5) (t : Addr) (s : State) : Result :=
  bitCall true t s.ctl.sr (.ok (s.bitAt sp (ioAddr pp) n))

/-- JSSET #n,X:ea and Y:ea (R474). -/
def execJssetEa (sp : DSpace) (i : Ind) (n : BitVec 5) (t : Addr) (s : State) : Result :=
  bitCall true t s.ctl.sr (s.bitInd sp i n)

/-- JSSET #n,X:aa and Y:aa (R474). -/
def execJssetAa (sp : DSpace) (aa : BitVec 6) (n : BitVec 5) (t : Addr) (s : State) : Result :=
  bitCall true t s.ctl.sr (.ok (s.bitAt sp (shortAddr aa) n))

/-- JSSET #n,S (R474). -/
def execJssetReg (r : Reg) (n : BitVec 5) (t : Addr) (s : State) : Result :=
  bitCall true t s.ctl.sr (s.bitOfReg r n)

end Sys2Proof.Machine
end

