-- ==== Sys2Proof/Machine/Loops.lean ====
section
/-! DEFINITION. REP, DO and ENDDO (spec 40_rep.md; 47_nonparallel_encoding_only.md R462, R464). The passes of
REP and the end of a DO loop are in Sequencer.lean. -/

namespace Sys2Proof.Machine

/-- A loop counter from a 24-bit source: its low 16 bits (10_state.md R49). -/
def countOf (v : Word) : Addr := v.setWidth 16

/-- A count from an indirect memory operand (40_rep.md R232). -/
def State.countInd (sp : DSpace) (i : Ind) (s : State) : Except Fault (Addr × State) :=
  match s.resolveInd i with
  | .error f => .error f
  | .ok (a, t) => let q := t.loadData sp a; .ok (countOf q.1, q.2)

/-- A count from an absolute short address (40_rep.md R233). -/
def State.countAa (sp : DSpace) (aa : BitVec 6) (s : State) : Except Fault (Addr × State) :=
  let q := s.loadData sp (shortAddr aa)
  .ok (countOf q.1, q.2)

/-- A count from a register: A and B through the limiter, SSH pulls the stack (40_rep.md R231, R234, R235). -/
def State.countReg (r : Reg) (s : State) : Except Fault (Addr × State) :=
  match s.readReg r with
  | .error f => .error f
  | .ok (v, t) => .ok (countOf v, t)

/-! ### REP (40_rep.md R236) -/

/-- `REP_start(count)`: LC goes to TEMP, the count to LC, and the next instruction word is fetched and held
(R236, R237). -/
def State.repStart (count : Addr) (s : State) : State :=
  ({ s with
    rep := { temp := s.ctl.lc, repeating := true, word := s.peek .p s.fetchAddrs.2 }
    ctl := { s.ctl with lc := count } } : State).advance 1

/-- The start of a REP from a count. -/
def beginRep (q : Except Fault (Addr × State)) : Result :=
  match q with
  | .error f => .fault f
  | .ok (count, t) => .next (t.repStart count)

/-- REP #xxx (R230). -/
def execRepImm (count : BitVec 12) (s : State) : Result := beginRep (.ok (count.setWidth 16, s))

/-- REP S (R231, R234, R235). -/
def execRepReg (r : Reg) (s : State) : Result := beginRep (s.countReg r)

/-- REP X:ea and Y:ea (R232). -/
def execRepEa (sp : DSpace) (i : Ind) (s : State) : Result := beginRep (s.countInd sp i)

/-- REP X:aa and Y:aa (R233). -/
def execRepAa (sp : DSpace) (aa : BitVec 6) (s : State) : Result := beginRep (s.countAa sp aa)

/-! ### DO (47_nonparallel_encoding_only.md R462) -/

/-- The start of a loop: LA and LC pushed, then the address of the loop's first instruction and SR; LC, LA
and LF set (R462). `saved` is SR before the instruction: the L and S of the count's limiter reach SR and not the stack
(00_scope.md R17). -/
def State.doStart (count last : Addr) (saved : BitVec 16) (s : State) : State :=
  let t := s.push s.ctl.la s.ctl.lc
  let u := { t with ctl := { t.ctl with lc := count, la := last } }
  ((u.push (u.ctl.pc + 2) saved).setLf true).advance 2

/-- The start of a DO loop from a count, with `saved` for the SR it pushes. -/
def beginDo (last : Addr) (saved : BitVec 16) (q : Except Fault (Addr × State)) : Result :=
  match q with
  | .error f => .fault f
  | .ok (count, t) => .next (t.doStart count last saved)

/-- DO #xxx,expr. -/
def execDoImm (count : BitVec 12) (last : Addr) (s : State) : Result :=
  beginDo last s.ctl.sr (.ok (count.setWidth 16, s))

/-- DO S,expr. -/
def execDoReg (r : Reg) (last : Addr) (s : State) : Result :=
  beginDo last s.ctl.sr (s.countReg r)

/-- DO X:ea,expr and Y:ea,expr. -/
def execDoEa (sp : DSpace) (i : Ind) (last : Addr) (s : State) : Result :=
  beginDo last s.ctl.sr (s.countInd sp i)

/-- DO X:aa,expr and Y:aa,expr. -/
def execDoAa (sp : DSpace) (aa : BitVec 6) (last : Addr) (s : State) : Result :=
  beginDo last s.ctl.sr (s.countAa sp aa)

/-! ### ENDDO (R464) -/

/-- The loop's two stack locations pulled: LF from the first, LA and LC from the second. -/
def State.leaveLoop (s : State) : State :=
  let p := s.pull
  let t := p.2.setLf (p.1.2.getLsbD 15)
  let q := t.pull
  { q.2 with ctl := { q.2.ctl with la := q.1.1, lc := q.1.2 } }

/-- ENDDO. -/
def execEnddo (s : State) : Result := .next (s.leaveLoop.advance 1)

end Sys2Proof.Machine
end

