-- ==== Sys2Proof/Machine/Moves.lean ====
section
/-! DEFINITION. MOVEC, MOVEM, MOVEP and LUA (spec 47_nonparallel_encoding_only.md R475 to R478;
30_encoding.md R195, R196, R199, R200). -/

namespace Sys2Proof.Machine

/-- The end of a class N instruction of `len` words that only moves data. -/
def endMove (len : Nat) (r : Except Fault State) : Result :=
  match r with
  | .error f => .fault f
  | .ok t => .next (t.advance len)

/-! ### MOVEC (R476) -/

/-- MOVEC between memory or an immediate datum and a control register. -/
def execMovecEa (sp : DSpace) (x : Xfer) (c : CReg) (s : State) : Result :=
  endMove (1 + x.extra) (s.moveEa sp x c.toReg)

/-- MOVEC between an absolute short address and a control register. -/
def execMovecAa (sp : DSpace) (w : Dir) (aa : BitVec 6) (c : CReg) (s : State) : Result :=
  endMove 1 (s.moveAt sp w (shortAddr aa) c.toReg)

/-- MOVEC between registers: W = 1 writes the control register. -/
def execMovecReg (w : Dir) (r : Reg) (c : CReg) (s : State) : Result :=
  let q := match w with
    | .toReg => (r, c.toReg)
    | .toMem => (c.toReg, r)
  endMove 1 <|
    match s.readReg q.1 with
    | .error f => .error f
    | .ok (v, t) => .ok (t.writeReg q.2 v)

/-- MOVEC #xx,D: the immediate is zero-extended. -/
def execMovecImm (i : BitVec 8) (c : CReg) (s : State) : Result :=
  endMove 1 (.ok (s.writeReg c.toReg (i.setWidth 24)))

/-! ### MOVEM (R477) -/

/-- A transfer between a P address and a register, by an instruction of `len` words. -/
def State.moveP (len : Nat) (w : Dir) (r : Reg) (ea : Ea) (s : State) : Except Fault State :=
  match w with
  | .toReg =>
    match s.resolve ea with
    | .error f => .error f
    | .ok (a, t) => .ok (t.writeReg r (t.peek .p a))
  | .toMem =>
    match s.readReg r with
    | .error f => .error f
    | .ok (v, t) =>
      match t.resolve ea with
      | .error f => .error f
      | .ok (a, u) => u.writeP len a v

/-- MOVEM P:ea,D and S,P:ea. -/
def execMovemEa (w : Dir) (ea : Ea) (r : Reg) (s : State) : Result :=
  endMove (1 + ea.extra) (s.moveP (1 + ea.extra) w r ea)

/-- MOVEM P:aa,D and S,P:aa. -/
def execMovemAa (w : Dir) (aa : BitVec 6) (r : Reg) (s : State) : Result :=
  endMove 1 (s.moveP 1 w r (.abs (shortAddr aa)))

/-! ### MOVEP (R478): W = 1 writes the peripheral (30_encoding.md R195) -/

/-- MOVEP between an I/O address and X, Y or an immediate datum. -/
def execMovepEa (ps : DSpace) (pp : BitVec 6) (es : DSpace) (x : Xfer) (s : State) : Result :=
  endMove (1 + x.extra) <|
    match x with
    | .toReg src =>
      match s.loadEa es src with
      | .error f => .error f
      | .ok (v, t) => .ok (t.storeData ps (ioAddr pp) v)
    | .toMem dst =>
      let q := s.loadData ps (ioAddr pp)
      q.2.storeEa es dst q.1

/-- MOVEP between an I/O address and P memory. -/
def execMovepP (ps : DSpace) (pp : BitVec 6) (w : Dir) (ea : Ea) (s : State) : Result :=
  endMove (1 + ea.extra) <|
    match w with
    | .toReg =>
      match s.resolve ea with
      | .error f => .error f
      | .ok (a, t) => .ok (t.storeData ps (ioAddr pp) (t.peek .p a))
    | .toMem =>
      let q := s.loadData ps (ioAddr pp)
      match q.2.resolve ea with
      | .error f => .error f
      | .ok (a, t) => t.writeP (1 + ea.extra) a q.1

/-- MOVEP between an I/O address and a register. -/
def execMovepReg (ps : DSpace) (pp : BitVec 6) (w : Dir) (r : Reg) (s : State) : Result :=
  endMove 1 <|
    match w with
    | .toReg =>
      match s.readReg r with
      | .error f => .error f
      | .ok (v, t) => .ok (t.storeData ps (ioAddr pp) v)
    | .toMem =>
      let q := s.loadData ps (ioAddr pp)
      .ok (q.2.writeReg r q.1)

/-! ### LUA (R475) -/

/-- LUA: the updated address goes to another register; the source register keeps its value. With its own source as
destination, LUA writes it (assumption 44). -/
def execLua (mm : UMode) (r : BitVec 3) (dst : RNReg) (s : State) : Result :=
  endMove 1 <|
    match s.stepped mm.toAguMode r with
    | .error f => .error f
    | .ok v =>
      .ok (match dst with
        | .r k => s.setR k v
        | .n k => s.setN k v)

end Sys2Proof.Machine
end

