-- ==== Sys2Proof/Machine/Multiply.lean ====
section
/-! DEFINITION. The multiply instructions (spec 46_data_alu_encoding_only.md R420 to R424) and the multiplies
by a power of two (47_nonparallel_encoding_only.md R472). -/

namespace Sys2Proof.Machine

/-- The product of a pair, negated where the sign bit k2 is 1: the formula of R420. For $800000 twice it gives
$00:800000:000000, +1.0 by 00_scope.md R12, and not the $01:000000:000000 that a parenthesis of R420 and one row of R430
print for it (assumption 41). SR's DM bit plays no part in the multiplies (assumption 30). -/
def product (neg : Bool) (f : Word × Word) : AccVal :=
  let p := BitVec.ofInt 56 (2 * (f.1.toInt * f.2.toInt))
  if neg then 0 - p else p

/-- The product of a multiplier pair of the machine. -/
def State.product (neg : Bool) (q : MulPair) (s : State) : AccVal := Machine.product neg (s.dalu.factors q)

/-- MPY (R421). -/
def execMpy (neg : Bool) (q : MulPair) (d : Acc) (mv : ParMove) (s : State) : Result :=
  parallel (withScale fun m s => keepC d (s.product neg q) false m) mv s

/-- MPYR (R422). -/
def execMpyr (neg : Bool) (q : MulPair) (d : Acc) (mv : ParMove) (s : State) : Result :=
  parallel (withScale fun m s =>
    keepC d (round56 m (s.product neg q)) (roundV m (s.product neg q)) m) mv s

/-- MAC: V by the 56-bit sum (R423). -/
def execMac (neg : Bool) (q : MulPair) (d : Acc) (mv : ParMove) (s : State) : Result :=
  parallel (withScale fun m s =>
    let t := add56 (s.acc d) (s.product neg q) false
    keepC d t.r t.v m) mv s

/-- MACR: V by the sum or by the rounding (R424). -/
def execMacr (neg : Bool) (q : MulPair) (d : Acc) (mv : ParMove) (s : State) : Result :=
  parallel (withScale fun m s =>
    let t := add56 (s.acc d) (s.product neg q) false
    keepC d (round56 m t.r) (t.v || roundV m t.r) m) mv s

/-- MAC S,#n,D: the spec refuses it, since its operand tables are not in the source (R472). -/
def execMacImm (_neg : Bool) (_qq : BitVec 2) (_d : Acc) (_sh : BitVec 5) (_s : State) : Result :=
  .refused .powerOfTwoMultiply

/-- MACR S,#n,D: refused (R472). -/
def execMacrImm (_neg : Bool) (_qq : BitVec 2) (_d : Acc) (_sh : BitVec 5) (_s : State) : Result :=
  .refused .powerOfTwoMultiply

/-- MPY S,#n,D: refused (R472). -/
def execMpyImm (_neg : Bool) (_qq : BitVec 2) (_d : Acc) (_sh : BitVec 5) (_s : State) : Result :=
  .refused .powerOfTwoMultiply

/-- MPYR S,#n,D: refused (R472). -/
def execMpyrImm (_neg : Bool) (_qq : BitVec 2) (_d : Acc) (_sh : BitVec 5) (_s : State) : Result :=
  .refused .powerOfTwoMultiply

end Sys2Proof.Machine
end

