-- ==== Sys2Proof/Machine/Dispatch.lean ====
section
/-! DEFINITION. The dispatch of every instruction to its meaning, one arm per constructor of `Instr`. -/

namespace Sys2Proof.Machine

/-- An instruction's own effect on the machine. -/
def exec (i : Instr) (s : State) : Host.Outcome State Fault Refusal :=
  match i with
  | .jsccShort k a => Sys2Proof.Machine.execJsccShort k a s
  | .jccShort k a => Sys2Proof.Machine.execJccShort k a s
  | .jsrShort a => Sys2Proof.Machine.execJsrShort a s
  | .jmpShort a => Sys2Proof.Machine.execJmpShort a s
  | .jsccEa k ea => Sys2Proof.Machine.execJsccEa k ea s
  | .jsrEa ea => Sys2Proof.Machine.execJsrEa ea s
  | .jccEa k ea => Sys2Proof.Machine.execJccEa k ea s
  | .jmpEa ea => Sys2Proof.Machine.execJmpEa ea s
  | .jssetPp sp pp n t => Sys2Proof.Machine.execJssetPp sp pp n t s
  | .jssetEa sp j n t => Sys2Proof.Machine.execJssetEa sp j n t s
  | .jssetAa sp aa n t => Sys2Proof.Machine.execJssetAa sp aa n t s
  | .jssetReg r n t => Sys2Proof.Machine.execJssetReg r n t s
  | .jsclrPp sp pp n t => Sys2Proof.Machine.execJsclrPp sp pp n t s
  | .jsclrEa sp j n t => Sys2Proof.Machine.execJsclrEa sp j n t s
  | .jsclrAa sp aa n t => Sys2Proof.Machine.execJsclrAa sp aa n t s
  | .jsclrReg r n t => Sys2Proof.Machine.execJsclrReg r n t s
  | .jsetPp sp pp n t => Sys2Proof.Machine.execJsetPp sp pp n t s
  | .jsetEa sp j n t => Sys2Proof.Machine.execJsetEa sp j n t s
  | .jsetAa sp aa n t => Sys2Proof.Machine.execJsetAa sp aa n t s
  | .jsetReg r n t => Sys2Proof.Machine.execJsetReg r n t s
  | .jclrPp sp pp n t => Sys2Proof.Machine.execJclrPp sp pp n t s
  | .jclrEa sp j n t => Sys2Proof.Machine.execJclrEa sp j n t s
  | .jclrAa sp aa n t => Sys2Proof.Machine.execJclrAa sp aa n t s
  | .jclrReg r n t => Sys2Proof.Machine.execJclrReg r n t s
  | .btstPp sp pp n => Sys2Proof.Machine.execBtstPp sp pp n s
  | .btstEa sp ea n => Sys2Proof.Machine.execBtstEa sp ea n s
  | .btstAa sp aa n => Sys2Proof.Machine.execBtstAa sp aa n s
  | .btstReg r n => Sys2Proof.Machine.execBtstReg r n s
  | .bchgPp sp pp n => Sys2Proof.Machine.execBchgPp sp pp n s
  | .bchgEa sp ea n => Sys2Proof.Machine.execBchgEa sp ea n s
  | .bchgAa sp aa n => Sys2Proof.Machine.execBchgAa sp aa n s
  | .bchgReg r n => Sys2Proof.Machine.execBchgReg r n s
  | .bsetPp sp pp n => Sys2Proof.Machine.execBsetPp sp pp n s
  | .bsetEa sp ea n => Sys2Proof.Machine.execBsetEa sp ea n s
  | .bsetAa sp aa n => Sys2Proof.Machine.execBsetAa sp aa n s
  | .bsetReg r n => Sys2Proof.Machine.execBsetReg r n s
  | .bclrPp sp pp n => Sys2Proof.Machine.execBclrPp sp pp n s
  | .bclrEa sp ea n => Sys2Proof.Machine.execBclrEa sp ea n s
  | .bclrAa sp aa n => Sys2Proof.Machine.execBclrAa sp aa n s
  | .bclrReg r n => Sys2Proof.Machine.execBclrReg r n s
  | .movepEa ps pp es x => Sys2Proof.Machine.execMovepEa ps pp es x s
  | .movepP ps pp w ea => Sys2Proof.Machine.execMovepP ps pp w ea s
  | .movepReg ps pp w r => Sys2Proof.Machine.execMovepReg ps pp w r s
  | .movemEa w ea r => Sys2Proof.Machine.execMovemEa w ea r s
  | .movemAa w aa r => Sys2Proof.Machine.execMovemAa w aa r s
  | .repImm count => Sys2Proof.Machine.execRepImm count s
  | .repReg r => Sys2Proof.Machine.execRepReg r s
  | .repEa sp j => Sys2Proof.Machine.execRepEa sp j s
  | .repAa sp aa => Sys2Proof.Machine.execRepAa sp aa s
  | .doImm count last => Sys2Proof.Machine.execDoImm count last s
  | .doReg r last => Sys2Proof.Machine.execDoReg r last s
  | .doEa sp j last => Sys2Proof.Machine.execDoEa sp j last s
  | .doAa sp aa last => Sys2Proof.Machine.execDoAa sp aa last s
  | .movecEa sp x c => Sys2Proof.Machine.execMovecEa sp x c s
  | .movecAa sp w aa c => Sys2Proof.Machine.execMovecAa sp w aa c s
  | .movecReg w r c => Sys2Proof.Machine.execMovecReg w r c s
  | .movecImm j c => Sys2Proof.Machine.execMovecImm j c s
  | .lua mm r dst => Sys2Proof.Machine.execLua mm r dst s
  | .tcc k src d => Sys2Proof.Machine.execTcc k src d s
  | .tccR k src d s2 d2 => Sys2Proof.Machine.execTccR k src d s2 d2 s
  | .norm r d => Sys2Proof.Machine.execNorm r d s
  | .divStep src d => Sys2Proof.Machine.execDiv src d s
  | .macImm neg qq d sh => Sys2Proof.Machine.execMacImm neg qq d sh s
  | .macrImm neg qq d sh => Sys2Proof.Machine.execMacrImm neg qq d sh s
  | .mpyImm neg qq d sh => Sys2Proof.Machine.execMpyImm neg qq d sh s
  | .mpyrImm neg qq d sh => Sys2Proof.Machine.execMpyrImm neg qq d sh s
  | .debugcc k => Sys2Proof.Machine.execDebugcc k s
  | .debug => Sys2Proof.Machine.execDebug s
  | .ori j d => Sys2Proof.Machine.execOri j d s
  | .andi j d => Sys2Proof.Machine.execAndi j d s
  | .enddo => Sys2Proof.Machine.execEnddo s
  | .stop => Sys2Proof.Machine.execStop s
  | .wait => Sys2Proof.Machine.execWait s
  | .reset => Sys2Proof.Machine.execReset s
  | .rts => Sys2Proof.Machine.execRts s
  | .dec d => Sys2Proof.Machine.execDec d s
  | .inc d => Sys2Proof.Machine.execInc d s
  | .swi => Sys2Proof.Machine.execSwi s
  | .illegal => Sys2Proof.Machine.execIllegal s
  | .rti => Sys2Proof.Machine.execRti s
  | .nop => Sys2Proof.Machine.execNop s
  | .tfrAcc d mv => Sys2Proof.Machine.execTfrAcc d mv s
  | .addr d mv => Sys2Proof.Machine.execAddr d mv s
  | .tst d mv => Sys2Proof.Machine.execTst d mv s
  | .cmpAcc d mv => Sys2Proof.Machine.execCmpAcc d mv s
  | .subr d mv => Sys2Proof.Machine.execSubr d mv s
  | .cmpmAcc d mv => Sys2Proof.Machine.execCmpmAcc d mv s
  | .addAcc d mv => Sys2Proof.Machine.execAddAcc d mv s
  | .rnd d mv => Sys2Proof.Machine.execRnd d mv s
  | .addl d mv => Sys2Proof.Machine.execAddl d mv s
  | .clr d mv => Sys2Proof.Machine.execClr d mv s
  | .subAcc d mv => Sys2Proof.Machine.execSubAcc d mv s
  | .subl d mv => Sys2Proof.Machine.execSubl d mv s
  | .notAcc d mv => Sys2Proof.Machine.execNot d mv s
  | .addLong l d mv => Sys2Proof.Machine.execAddLong l d mv s
  | .adc l d mv => Sys2Proof.Machine.execAdc l d mv s
  | .subLong l d mv => Sys2Proof.Machine.execSubLong l d mv s
  | .sbc l d mv => Sys2Proof.Machine.execSbc l d mv s
  | .asr d mv => Sys2Proof.Machine.execAsr d mv s
  | .lsr d mv => Sys2Proof.Machine.execLsr d mv s
  | .absAcc d mv => Sys2Proof.Machine.execAbs d mv s
  | .ror d mv => Sys2Proof.Machine.execRor d mv s
  | .asl d mv => Sys2Proof.Machine.execAsl d mv s
  | .lsl d mv => Sys2Proof.Machine.execLsl d mv s
  | .neg d mv => Sys2Proof.Machine.execNeg d mv s
  | .rol d mv => Sys2Proof.Machine.execRol d mv s
  | .addWord w d mv => Sys2Proof.Machine.execAddWord w d mv s
  | .tfrWord w d mv => Sys2Proof.Machine.execTfrWord w d mv s
  | .orWord w d mv => Sys2Proof.Machine.execOr w d mv s
  | .eorWord w d mv => Sys2Proof.Machine.execEor w d mv s
  | .subWord w d mv => Sys2Proof.Machine.execSubWord w d mv s
  | .cmpWord w d mv => Sys2Proof.Machine.execCmpWord w d mv s
  | .andWord w d mv => Sys2Proof.Machine.execAnd w d mv s
  | .cmpmWord w d mv => Sys2Proof.Machine.execCmpmWord w d mv s
  | .mpy neg q d mv => Sys2Proof.Machine.execMpy neg q d mv s
  | .mpyr neg q d mv => Sys2Proof.Machine.execMpyr neg q d mv s
  | .mac neg q d mv => Sys2Proof.Machine.execMac neg q d mv s
  | .macr neg q d mv => Sys2Proof.Machine.execMacr neg q d mv s
  | .moveNone => Sys2Proof.Machine.execMoveNone s
  | .moveImm dst j => Sys2Proof.Machine.execMoveImm dst j s
  | .moveReg src dst => Sys2Proof.Machine.execMoveReg src dst s
  | .moveUpd mm r => Sys2Proof.Machine.execMoveUpd mm r s
  | .moveXEa x r => Sys2Proof.Machine.execMoveXEa x r s
  | .moveXAa w aa r => Sys2Proof.Machine.execMoveXAa w aa r s
  | .moveYEa x r => Sys2Proof.Machine.execMoveYEa x r s
  | .moveYAa w aa r => Sys2Proof.Machine.execMoveYAa w aa r s
  | .moveLEa w ea l => Sys2Proof.Machine.execMoveLEa w ea l s
  | .moveLAa w aa l => Sys2Proof.Machine.execMoveLAa w aa l s
  | .moveXR ee x d f => Sys2Proof.Machine.execMoveXR ee x d f s
  | .moveRY d e ff x => Sys2Proof.Machine.execMoveRY d e ff x s
  | .moveXR2 d ea => Sys2Proof.Machine.execMoveXR2 d ea s
  | .moveRY2 d ea => Sys2Proof.Machine.execMoveRY2 d ea s
  | .moveXY wx ee mx rx wy ff my ry => Sys2Proof.Machine.execMoveXY wx ee mx rx wy ff my ry s

end Sys2Proof.Machine
end

