-- ==== Sys2Proof/Machine/Hazard.lean ====
section
/-! DEFINITION. The instruction sequence restrictions of A.9 (spec 70_reset_and_hazards.md R566 to R581) and
what REP can repeat (40_rep.md R240, R242). -/

namespace Sys2Proof.Machine

/-! ### What an instruction is -/

/-- DO (R568, R571). -/
def isDo : Instr → Bool
  | .doImm .. | .doReg .. | .doEa .. | .doAa .. => true
  | _ => false

/-- REP. -/
def isRep : Instr → Bool
  | .repImm .. | .repReg .. | .repEa .. | .repAa .. => true
  | _ => false

/-- Jcc, JMP, JScc and JSR (R569). -/
def isJump : Instr → Bool
  | .jsccShort .. | .jccShort .. | .jsrShort .. | .jmpShort .. | .jsccEa .. | .jsrEa .. | .jccEa ..
  | .jmpEa .. => true
  | _ => false

/-- JCLR, JSET, JSCLR and JSSET. -/
def isBitJump : Instr → Bool
  | .jssetPp .. | .jssetEa .. | .jssetAa .. | .jssetReg .. | .jsclrPp .. | .jsclrEa .. | .jsclrAa ..
  | .jsclrReg .. | .jsetPp .. | .jsetEa .. | .jsetAa .. | .jsetReg .. | .jclrPp .. | .jclrEa .. | .jclrAa ..
  | .jclrReg .. => true
  | _ => false

/-- The register a bit-test jump tests. -/
def bitJumpReg : Instr → Option Reg
  | .jssetReg r _ _ | .jsclrReg r _ _ | .jsetReg r _ _ | .jclrReg r _ _ => some r
  | _ => none

/-- ANDI MR and ORI MR. -/
def writesMr : Instr → Bool
  | .andi _ .mr | .ori _ .mr => true
  | _ => false

/-- ANDI CCR and ORI CCR. -/
def writesCcr : Instr → Bool
  | .andi _ .ccr | .ori _ .ccr => true
  | _ => false

/-- A program-controller register as a register. -/
def ctlOf : Reg → Option CtlReg
  | .c x => some x
  | .d _ | .r _ | .n _ | .m _ => none

/-- The register MOVEC, MOVEM or MOVEP writes. -/
def moveDst : Instr → Option Reg
  | .movecEa _ (.toReg _) c | .movecAa _ .toReg _ c | .movecReg .toReg _ c | .movecImm _ c => some c.toReg
  | .movecReg .toMem r _ | .movemEa .toReg _ r | .movemAa .toReg _ r | .movepReg _ _ .toMem r => some r
  | _ => none

/-- The register MOVEC, MOVEM or MOVEP reads. -/
def moveSrc : Instr → Option Reg
  | .movecEa _ (.toMem _) c | .movecAa _ .toMem _ c | .movecReg .toMem _ c => some c.toReg
  | .movecReg .toReg r _ | .movemEa .toMem _ r | .movemAa .toMem _ r | .movepReg _ _ .toReg r => some r
  | _ => none

/-- The register BCHG, BCLR or BSET writes. -/
def bitDst : Instr → Option Reg
  | .bchgReg r _ | .bsetReg r _ | .bclrReg r _ => some r
  | _ => none

/-- The program-controller register MOVEC, MOVEM or MOVEP writes. -/
def moveCtlDst (i : Instr) : Option CtlReg := (moveDst i).bind ctlOf

/-- The program-controller register MOVEC, MOVEM or MOVEP reads. -/
def moveCtlSrc (i : Instr) : Option CtlReg := (moveSrc i).bind ctlOf

/-- The program-controller register BCHG, BCLR, BSET, MOVEC, MOVEM or MOVEP writes (R581, W). -/
def ctlDst (i : Instr) : Option CtlReg := moveCtlDst i <|> (bitDst i).bind ctlOf

/-- Is the register one of a list? -/
def oneOf (x : Option CtlReg) (l : List CtlReg) : Bool :=
  match x with
  | some r => l.contains r
  | none => false

/-- What the next instruction's checks need of this one (R566). -/
def prevOf (i : Instr) : Prev where
  wrote := ctlDst i
  fromSsh := moveCtlSrc i == some .ssh
  immMr := writesMr i
  immCcr := writesCcr i

/-! ### Address generation (R575 to R578) -/

/-- The indirect operand of an effective address. -/
def eaInds : Ea → List Ind
  | .ind i => [i]
  | .abs _ => []

/-- The indirect operand of a transfer. -/
def xferInds : Xfer → List Ind
  | .toReg (.mem ea) | .toMem ea => eaInds ea
  | .toReg (.imm _) => []

/-- The indirect operands of a move field. -/
def moveInds : ParMove → List Ind
  | .upd mm r => [⟨mm.toAguMode, r⟩]
  | .xEa x _ | .yEa x _ | .xr _ x _ _ | .ry _ _ _ x => xferInds x
  | .lEa _ ea _ | .xr2 _ ea | .ry2 _ ea => eaInds ea
  | .xy _ _ mx rx _ _ my ry =>
    [⟨mx.toAguMode, rx⟩, ⟨my.toAguMode, BitVec.ofBool (!rx.getLsbD 2) ++ ry⟩]
  | .none | .imm _ _ | .reg _ _ | .xAa _ _ _ | .yAa _ _ _ | .lAa _ _ _ => []

/-- The indirect operands of an instruction: through each it addresses by Rn (R576). -/
def addrUses (i : Instr) : List Ind :=
  match i.parallel? with
  | some (_, mv) => moveInds mv
  | none =>
    match i with
    | .jsccEa _ ea | .jsrEa ea | .jccEa _ ea | .jmpEa ea | .btstEa _ ea _ | .bchgEa _ ea _
    | .bsetEa _ ea _ | .bclrEa _ ea _ | .movepP _ _ _ ea | .movemEa _ ea _ => eaInds ea
    | .jssetEa _ j _ _ | .jsclrEa _ j _ _ | .jsetEa _ j _ _ | .jclrEa _ j _ _ | .repEa _ j
    | .doEa _ j _ => [j]
    | .movepEa _ _ _ x | .movecEa _ x _ => xferInds x
    | .lua mm r _ => [⟨mm.toAguMode, r⟩]
    | _ => []

/-- Does the mode read Nn? (R576) -/
def modeReadsN : AguMode → Bool
  | .postSubN | .postAddN | .indexed => true
  | .postDec | .postInc | .noUpdate | .preDec => false

/-- Does an indirect operand use this AGU register for address generation? (R576) -/
def indUses (q : Reg) (i : Ind) : Bool :=
  match q with
  | .r k => i.reg == k
  | .n k => i.reg == k && modeReadsN i.mode
  | .m k => i.reg == k && i.mode != .noUpdate
  | .d _ | .c _ => false

/-- A register if it is an AGU register. -/
def aguReg : Reg → Option Reg
  | .r k => some (.r k)
  | .n k => some (.n k)
  | .m k => some (.m k)
  | .d _ | .c _ => none

/-- The register a move field writes, where it can be an AGU register (45_parallel_moves.md R364). The U move's
update of Rn counts as an addressing-mode update and marks nothing (assumption 39). -/
def parMoveDst : ParMove → Option Reg
  | .imm r _ | .reg _ r | .xEa (.toReg _) r | .yEa (.toReg _) r | .xAa .toReg _ r | .yAa .toReg _ r =>
    some r.toReg
  | _ => none

/-- The AGU register an instruction writes as a move-type instruction (R578): parallel moves, MOVEC, MOVEM,
LUA, and Tcc when its condition holds; not MOVEP, not NORM, not an addressing mode. -/
def aguMoved (i : Instr) (s : State) : Option Reg :=
  match i.parallel? with
  | some (_, mv) => (parMoveDst mv).bind aguReg
  | none =>
    match i with
    | .lua _ _ (.r k) => some (.r k)
    | .lua _ _ (.n k) => some (.n k)
    | .tccR k _ _ _ d2 => if condHolds k s.ccr then some (.r d2) else none
    | .movepReg .. => none
    | _ => (moveDst i).bind aguReg

/-! ### The checks -/

/-- The first word of the instruction stands at LA - d while a loop is active; for a word of an interrupt vector
that is its own address (R567). -/
def atLa (s : State) (d : Addr) : Bool := s.lf && s.fetchAddrs.1 + d == s.ctl.la

/-- The instructions that have PC as a destination: jumps, subroutine jumps and returns (R567). -/
def changesFlow (i : Instr) : Bool := isJump i || isBitJump i || i == .rti || i == .rts

/-- Not at LA-2, LA-1 and LA: the list of R568, and by the prose of R567 what has PC as a destination or SSH as a
source (assumption 15). -/
def badNearEnd (i : Instr) : Bool :=
  isDo i || oneOf (ctlDst i) [.la, .lc, .sr, .sp, .ssh, .ssl] || moveCtlSrc i == some .ssh ||
  changesFlow i || writesMr i ||
  (match i with
   | .btstReg (.c .ssh) _ | .repReg (.c .ssh) => true
   | _ => false)

/-- Not at LA (R569). -/
def badAtEnd (i : Instr) : Bool :=
  i.words == 2 || isJump i || isRep i ||
  (match i with
   | .reset | .rti | .rts | .stop | .wait => true
   | _ => false)

/-- Not in a fast interrupt routine (R579). -/
def badInFast (i : Instr) : Bool :=
  isDo i || oneOf (moveCtlDst i) [.la, .lc, .ssh, .ssl, .sp, .sr] || moveCtlSrc i == some .ssh ||
  writesMr i || writesCcr i ||
  (match i with
   | .enddo | .rti | .rts | .stop | .swi | .wait => true
   | _ => false)

/-- Immediately before DO, ENDDO, RTI, RTS and reads of SSH and SSL (R571 to R574, R581). -/
def badAfter (i : Instr) (p : Prev) : Option Restriction :=
  if isDo i && (oneOf p.wrote [.la, .lc, .ssh, .ssl, .sp] || p.fromSsh) then some .beforeDo
  else if i == .enddo &&
    (oneOf p.wrote [.la, .lc, .sr, .ssh, .ssl, .sp] || p.fromSsh || p.immMr) then some .beforeEnddo
  else if i == .rti &&
    (oneOf p.wrote [.sr, .ssh, .ssl, .sp] || p.fromSsh || p.immMr || p.immCcr) then some .beforeReturn
  else if i == .rts && (oneOf p.wrote [.ssh, .ssl, .sp] || p.fromSsh) then some .beforeReturn
  else if (oneOf (moveCtlSrc i) [.ssh, .ssl] || oneOf ((bitJumpReg i).bind ctlOf) [.ssh, .ssl]) &&
    p.wrote == some .sp then some .stackAccess
  else none

/-- The restriction that forbids this instruction here, if one does (R566). -/
def hazard (i : Instr) (s : State) : Option Restriction :=
  if (atLa s 0 || atLa s 1 || atLa s 2) && badNearEnd i then some .nearLoopEnd
  else if atLa s 0 && badAtEnd i then some .atLoopEnd
  else if s.vec.isSome && badInFast i then some .fastInterrupt
  else
    match badAfter i s.prev with
    | some r => some r
    | none =>
      match s.aguWritten with
      | some q => if (addrUses i).any (indUses q) then some .aguDelay else none
      | none => none

/-! ### REP (40_rep.md R240, R242) -/

/-- REP cannot repeat the instruction (R240). -/
def badRepeat (i : Instr) : Bool :=
  i.words == 2 || isDo i || isRep i || isJump i || isBitJump i ||
  (match i with
   | .rti | .rts | .stop | .swi | .wait | .enddo | .illegal | .debug | .debugcc _ => true
   | _ => false)

/-- The repeated instruction writes LC (R242). -/
def writesLc (i : Instr) : Bool := ctlDst i == some .lc

end Sys2Proof.Machine
end

