-- ==== Sys2Proof/Machine/Events.lean ====
section
/-! DEFINITION. The events of the host, hardware reset, and the arbitration of interrupts
(spec 00_scope.md R8; 41_program_control.md R267, R268, R283; 60_exceptions.md R503;
70_reset_and_hazards.md R560). -/

namespace Sys2Proof.Machine

/-! ### Hardware reset (70_reset_and_hazards.md R560) -/

/-- The vector of hardware reset: `RESET_VECTOR`, $E000 in the development mode (60_exceptions.md R525). -/
def Platform.resetPc (p : Platform) : Addr := if p.modePins = 3 then 0xE000 else p.resetVector

/-- The RESET pin goes low: the instruction in progress is abandoned and nothing is pushed (R560). -/
def State.hardReset (s : State) : State :=
  { s with
    proc := .reset
    rep := { s.rep with repeating := false }
    vec := none
    pending := Vector.replicate 19 false
    prev := Prev.none
    aguWritten := none
    ctl := { s.ctl with sr := 0x0300, omr := s.plat.modePins.setWidth 8, sp := 0 }
    agu := { s.agu with m := Vector.replicate 8 0xFFFF }
    ipr := 0
    bcr := 0xFFFF
    outbox := .peripheralReset :: s.outbox }

/-- The RESET pin is released: fetch begins at the reset vector (R560). -/
def State.release (s : State) : State := { s.setPc s.plat.resetPc with proc := .normal }

/-! ### Events (00_scope.md R8) -/

/-- An address of memory that another bus master can reach (20_memory.md R106, R145). -/
def Platform.isExternal (p : Platform) (sp : Space) (a : Addr) : Bool :=
  p.external.any fun r => r.space == sp && decide (r.first.toNat ≤ a.toNat) && decide (a.toNat ≤ r.last.toNat)

/-- The maskable sources in the order of the answer to `pending_after_stop`. -/
def maskableSources : List Source := allSources.filter Source.maskable

/-- IRQA ends the stop state: the delay is counted, the maskable requests are cleared and arbitrated anew
(41_program_control.md R268, R269). -/
def State.leaveStop (s : State) : State :=
  let answer := Config.pendingAfterStop s.draws
  let t := s.clearMaskable.tell .pendingQuery
  { t with
    pending := Vector.ofFn fun k => t.pending[k] || (decide (5 ≤ k.val) && answer.getLsbD (k.val - 5))
    draws := s.draws + 1
    clock := s.clock + (if s.ctl.omr.getLsbD 6 then s.plat.stopShortDelay else 65536)
    proc := .normal }

/-- One event. In the stop state only the RESET pin, IRQA and a bus master act. In the reset state only the RESET
pin and a bus master do, also in the slot of the step that finds the pin released: a request there is dropped. In
the debug state requests become pending (00_scope.md R8, 41_program_control.md R266, R283; assumption 8). -/
def State.takeEvent (e : HostEvent) (s : State) : State :=
  match s.proc, e with
  | _, .resetPin => s.hardReset
  | .stop, .irqaLow => s.leaveStop
  | _, .busWrite sp a v =>
    if s.plat.isExternal sp a && !(sp != .p && isIo a) then s.poke sp a v else s
  | .debug, .debugResume => { s with proc := .normal }
  | .stop, _ | .reset, _ => s
  | _, .irqaLow => s.pend .irqa
  | _, .irqbLow => s.pend .irqb
  | _, .nmi => s.pend .nmi
  | _, .irq q => if q.maskable then s.pend q else s
  | _, .debugResume => s

/-- The slot of events of this step, taken from the inbox and applied in order. -/
def State.takeSlot (s : State) : State :=
  match s.inbox with
  | [] => s
  | slot :: rest => slot.foldl (fun t e => t.takeEvent e) { s with inbox := rest }

/-- Is the RESET pin low in this step's slot? -/
def State.resetLow (s : State) : Bool :=
  match s.inbox with
  | [] => false
  | slot :: _ => slot.contains .resetPin

/-! ### Arbitration (60_exceptions.md R503) -/

/-- The level an IPR field of two bits gives: 00 disables the source. -/
def fieldLevel (f : BitVec 2) : Option (BitVec 2) := if f = 0 then none else some (f - 1)

/-- A source's level; `none` where IPR disables it (R503, 10_state.md R53). -/
def State.levelOf (q : Source) (s : State) : Option (BitVec 2) :=
  match q with
  | .illegal | .nmi | .stackError | .trace | .swi => some 3
  | .irqa => fieldLevel (s.ipr.extractLsb' 0 2)
  | .irqb => fieldLevel (s.ipr.extractLsb' 3 2)
  | .hostRx | .hostTx | .hostCmd => fieldLevel (s.ipr.extractLsb' 10 2)
  | .ssiRx | .ssiRxExc | .ssiTx | .ssiTxExc => fieldLevel (s.ipr.extractLsb' 12 2)
  | .sciRx | .sciRxExc | .sciTx | .sciIdle | .sciTimer => fieldLevel (s.ipr.extractLsb' 14 2)

/-- Is the source pending, enabled and not below the mask? (R503) -/
def State.unmasked (q : Source) (s : State) : Bool :=
  s.isPending q &&
    match s.levelOf q with
    | some l => decide (s.imask.toNat ≤ l.toNat)
    | none => false

/-- The order within a level (R503): the core's sources, IRQA, IRQB, then the platform's order. -/
def State.order (s : State) : List Source :=
  [.illegal, .nmi, .stackError, .trace, .swi, .irqa, .irqb] ++ s.plat.periphOrder ++ allSources

/-- The unmasked source of a level that comes first. -/
def State.firstAt (l : BitVec 2) (s : State) : Option (Source × BitVec 2) :=
  (s.order.find? fun q => s.unmasked q && s.levelOf q == some l).map fun q => (q, l)

/-- The source to service and its level, highest level first (R503). -/
def State.arbitrate (s : State) : Option (Source × BitVec 2) :=
  s.firstAt 3 <|> s.firstAt 2 <|> s.firstAt 1 <|> s.firstAt 0

end Sys2Proof.Machine
end

