-- ==== Sys2Proof/Machine/Timing.lean ====
section
/-! DEFINITION. Oscillator clock cycles by the tables of A.8 (spec 70_reset_and_hazards.md R600 to R612).
Non-normative: `clock` is written by the step and read by nothing (assumption 31). -/

namespace Sys2Proof.Machine

/-! ### Wait states (R611, R612) -/

/-- `wx`, `wy` and `wp`: BCR[15:12], BCR[11:8] and BCR[7:4]. -/
def State.waitOf (sp : Space) (s : State) : Nat :=
  match sp with
  | .x => (s.bcr.extractLsb' 12 4).toNat
  | .y => (s.bcr.extractLsb' 8 4).toNat
  | .p => (s.bcr.extractLsb' 4 4).toNat

/-- `wio`: BCR[3:0]. -/
def State.waitIo (s : State) : Nat := (s.bcr.extractLsb' 0 4).toNat

/-- The wait states of an external access, `none` for an internal one; data addresses in the I/O range take
the I/O column (20_memory.md R103). -/
def State.waits (sp : Space) (a : Addr) (s : State) : Option Nat :=
  if s.plat.isExternal sp a then some (if sp != .p && isIo a then s.waitIo else s.waitOf sp) else none

/-- The terms `ax`, `ay`, `ap` and `aio`. -/
def State.access (sp : Space) (a : Addr) (s : State) : Nat := (s.waits sp a).getD 0

/-- The term `axy` (R611). -/
def State.accessXY (ax ay : Addr) (s : State) : Nat :=
  match s.waits .x ax, s.waits .y ay with
  | none, none => 0
  | none, some w => w
  | some w, none => w
  | some v, some w => 2 + v + w

/-! ### Addressing modes (Table A-13, R610) -/

/-- The `ea` cycles of an indirect mode. -/
def modeCycles : AguMode → Nat
  | .indexed | .preDec => 2
  | .postSubN | .postAddN | .postDec | .postInc | .noUpdate => 0

/-- The `ea` cycles of an effective address. -/
def eaCycles : Ea → Nat
  | .ind i => modeCycles i.mode
  | .abs _ => 2

/-- The address an indirect operand uses; 0 where the address arithmetic stops. -/
def State.indAddr (i : Ind) (s : State) : Addr :=
  match s.resolveInd i with
  | .ok (a, _) => a
  | .error _ => 0

/-- The address an effective address uses. -/
def State.eaAddr (ea : Ea) (s : State) : Addr :=
  match ea with
  | .ind i => s.indAddr i
  | .abs a => a

/-- `ea + n * ax` for an effective address. -/
def State.eaAccess (sp : Space) (n : Nat) (ea : Ea) (s : State) : Nat :=
  eaCycles ea + n * s.access sp (s.eaAddr ea)

/-- `ea + ax` of a transfer; immediate data makes no access (R604, Note 1). -/
def State.xferCycles (sp : Space) (x : Xfer) (s : State) : Nat :=
  match x with
  | .toReg (.imm _) => 2
  | .toReg (.mem ea) | .toMem ea => s.eaAccess sp 1 ea

/-! ### The terms of Table A-6 -/

/-- `mv`, Table A-7 (R604). -/
def State.mvCycles (mv : ParMove) (s : State) : Nat :=
  match mv with
  | .none | .imm _ _ | .reg _ _ | .upd _ _ => 0
  | .xEa x _ | .xr _ x _ _ => s.xferCycles .x x
  | .yEa x _ | .ry _ _ _ x => s.xferCycles .y x
  | .xAa _ aa _ => s.access .x (shortAddr aa)
  | .yAa _ aa _ => s.access .y (shortAddr aa)
  | .lEa _ ea _ => eaCycles ea + s.accessXY (s.eaAddr ea) (s.eaAddr ea)
  | .lAa _ aa _ => s.accessXY (shortAddr aa) (shortAddr aa)
  | .xr2 _ ea => s.eaAccess .x 1 ea
  | .ry2 _ ea => s.eaAccess .y 1 ea
  | .xy _ _ mx rx _ _ my ry =>
    let ix : Ind := ⟨mx.toAguMode, rx⟩
    let iy : Ind := ⟨my.toAguMode, BitVec.ofBool (!rx.getLsbD 2) ++ ry⟩
    max (modeCycles ix.mode) (modeCycles iy.mode) + s.accessXY (s.indAddr ix) (s.indAddr iy)

/-- `2 * ap` of a change of flow to an address (R608, R609). -/
def State.refill (target : Addr) (s : State) : Nat := 2 * s.access .p target

/-- The third fetch of a two-word jump: one more `ap` where the jump itself stands in P memory with wait states
(R608). -/
def State.thirdFetch (s : State) : Nat := s.access .p s.fetchAddrs.1

/-- `jx` of Jcc, JMP, JScc and JSR (R608). -/
def State.jumpCycles (ea : Ea) (s : State) : Nat :=
  4 + eaCycles ea + s.refill (s.eaAddr ea) + (if ea.extra = 1 then s.thirdFetch else 0)

/-- `jx` of the bit-test jumps but for the operand, with the base of Table A-6; they have two words (R608). -/
def State.bitJumpCycles (target : Addr) (s : State) : Nat := 6 + s.refill target + s.thirdFetch

/-- The cycles of a register form of MOVEP: data-ALU registers cost less (R606, Notes 3 and 4). -/
def movepRegBase : Reg → Nat
  | .d _ => 0
  | .r _ | .n _ | .m _ | .c _ => 2

/-- Oscillator clock cycles of an instruction in the state before it (Table A-6, R602). STOP and ILLEGAL have
no figure and count 0; WAIT counts its minimum (R603). -/
def State.cycles (i : Instr) (s : State) : Nat :=
  match i.parallel? with
  | some (_, mv) => 2 + s.mvCycles mv
  | none =>
    match i with
    | .jsccShort _ a | .jccShort _ a | .jsrShort a | .jmpShort a => 4 + s.refill (a.setWidth 16)
    | .jsccEa _ ea | .jsrEa ea | .jccEa _ ea | .jmpEa ea => s.jumpCycles ea
    | .jssetPp sp pp _ t | .jsclrPp sp pp _ t | .jsetPp sp pp _ t | .jclrPp sp pp _ t =>
      s.bitJumpCycles t + s.access sp.toSpace (ioAddr pp)
    | .jssetEa sp j _ t | .jsclrEa sp j _ t | .jsetEa sp j _ t | .jclrEa sp j _ t =>
      s.bitJumpCycles t + s.eaAccess sp.toSpace 1 (.ind j)
    | .jssetAa sp aa _ t | .jsclrAa sp aa _ t | .jsetAa sp aa _ t | .jclrAa sp aa _ t =>
      s.bitJumpCycles t + s.access sp.toSpace (shortAddr aa)
    | .jssetReg _ _ t | .jsclrReg _ _ t | .jsetReg _ _ t | .jclrReg _ _ t => s.bitJumpCycles t
    | .btstPp sp pp _ => 4 + s.access sp.toSpace (ioAddr pp)
    | .btstEa sp ea _ => 4 + s.eaAccess sp.toSpace 1 ea
    | .btstAa sp aa _ => 4 + s.access sp.toSpace (shortAddr aa)
    | .bchgPp sp pp _ | .bsetPp sp pp _ | .bclrPp sp pp _ => 4 + 2 * s.access sp.toSpace (ioAddr pp)
    | .bchgEa sp ea _ | .bsetEa sp ea _ | .bclrEa sp ea _ => 4 + s.eaAccess sp.toSpace 2 ea
    | .bchgAa sp aa _ | .bsetAa sp aa _ | .bclrAa sp aa _ => 4 + 2 * s.access sp.toSpace (shortAddr aa)
    | .btstReg _ _ | .bchgReg _ _ | .bsetReg _ _ | .bclrReg _ _ => 4
    | .movepEa ps pp _ (.toReg (.imm _)) => 4 + s.access ps.toSpace (ioAddr pp)
    | .movepEa ps pp es x => 4 + s.xferCycles es.toSpace x + s.access ps.toSpace (ioAddr pp)
    | .movepP ps pp _ ea => 6 + s.eaAccess .p 1 ea + s.access ps.toSpace (ioAddr pp)
    | .movepReg ps pp _ r => 2 + movepRegBase r + s.access ps.toSpace (ioAddr pp)
    | .movemEa _ ea _ => 6 + s.eaAccess .p 1 ea
    | .movemAa _ aa _ => 6 + s.access .p (shortAddr aa)
    | .repImm _ | .repReg _ => 4
    | .repEa sp j => 4 + s.eaAccess sp.toSpace 1 (.ind j)
    | .repAa sp aa => 4 + s.access sp.toSpace (shortAddr aa)
    | .doImm _ _ | .doReg _ _ => 6
    | .doEa sp j _ => 6 + s.eaAccess sp.toSpace 1 (.ind j)
    | .doAa sp aa _ => 6 + s.access sp.toSpace (shortAddr aa)
    | .movecEa sp x _ => 2 + s.xferCycles sp.toSpace x
    | .movecAa sp _ aa _ => 2 + s.access sp.toSpace (shortAddr aa)
    | .lua _ _ _ | .debug | .debugcc _ | .reset => 4
    | .rti | .rts => 4 + s.refill s.ssTop.1.1
    | .swi => 8
    | .wait => 16
    | .stop | .illegal => 0
    | _ => 2

end Sys2Proof.Machine
end

