-- ==== Sys2Proof/Machine/Sequencer.lean ====
section
/-! DEFINITION. What stands around an instruction's own effect: the fetch, the sequence checks, the passes of
REP, the end of a DO loop, trace, interrupt vectors, and the processing states (spec 40_rep.md R236 to R242;
47_nonparallel_encoding_only.md R462; 60_exceptions.md R502 to R510; 70_reset_and_hazards.md R566). -/

namespace Sys2Proof.Machine

/-! ### After an instruction -/

/-- The marks the next instruction's checks read, and the cycles (70_reset_and_hazards.md R566, R578, R600);
`s` is the state before the instruction, `t` after its own effect. -/
def State.mark (i : Instr) (s t : State) : State :=
  { t with prev := prevOf i, aguWritten := aguMoved i s, clock := t.clock + s.cycles i }

/-- Trace: T = 1 at the start of an instruction raises a trace exception when it completes, also for a word of a
vector and for the subroutine jump that forms a long interrupt; REP and its passes are one instruction
(60_exceptions.md R506; assumption 20). -/
def State.traced (s t : State) : State :=
  if s.tr && !s.rep.repeating then t.pend .trace else t

/-- One pass of a repeated instruction done: leave the repeat when LC is 1, else count down and stay
(40_rep.md R236). -/
def State.repPass (s t : State) : State :=
  if t.ctl.lc = 1 then
    { t with ctl := { t.ctl with lc := t.rep.temp }, rep := { t.rep with repeating := false } }
  else { t with ctl := { t.ctl with lc := t.ctl.lc - 1, pc := s.ctl.pc }, vec := s.vec }

/-- The instruction of `len` words at PC of `s` was the last of the loop that was and is active
(47_nonparallel_encoding_only.md R462; assumption 16). -/
def loopEnds (len : Nat) (s t : State) : Bool :=
  s.vec.isNone && !t.rep.repeating && s.lf && t.lf && t.ctl.la == s.ctl.la &&
    s.ctl.pc + BitVec.ofNat 16 (len - 1) == s.ctl.la

/-- The end of a pass through a loop (R462). -/
def State.loopEnd (t : State) : State :=
  if t.ctl.lc = 1 then
    let last := t.ctl.la
    let p := t.pull
    let u := p.2.setLf (p.1.2.getLsbD 15)
    let q := u.pull
    { q.2 with ctl := { q.2.ctl with la := q.1.1, lc := q.1.2, pc := last + 1 } }
  else
    let q := t.ssTop
    { q.2 with ctl := { q.2.ctl with lc := q.2.ctl.lc - 1, pc := q.1.1 } }

/-- An interrupt vector both of whose words are used up: the interrupted program goes on at PC
(60_exceptions.md R509). -/
def State.endVector (t : State) : State :=
  match t.vec with
  | none => t
  | some v =>
    if v.slot = 2 ∨ v.slot = 3 then
      { t with vec := none, proc := if t.proc = .exception then .normal else t.proc }
    else t

/-- Everything after an instruction's own effect. -/
def retire (i : Instr) (s t : State) : State :=
  let u := s.traced (State.mark i s t)
  let v := if s.rep.repeating then s.repPass u else u
  if loopEnds i.words s v then v.loopEnd else v.endVector

/-! ### One instruction -/

/-- A decoded instruction: the sequence checks, its own effect, and what follows. -/
def issue (i : Instr) (s : State) : Result :=
  match hazard i s with
  | some r => .fault (.restricted r)
  | none =>
    match exec i s with
    | .fault f => .fault f
    | .refused r => .refused r
    | .next t => .next (retire i s t)

/-- The two words from the fetch stream: the instruction word and the one after it
(60_exceptions.md R508, 20_memory.md R112). -/
def State.fetched (s : State) : Word × Word := (s.peek .p s.fetchAddrs.1, s.peek .p s.fetchAddrs.2)

/-- Is the next instruction word the second word of a vector? -/
def State.secondSlot (s : State) : Bool :=
  match s.vec with
  | some v => v.slot != 0
  | none => false

/-- The next instruction of the program or of a vector. -/
def runNext (s : State) : Result :=
  match decode s.fetched.1 s.fetched.2 with
  | .error e => .refused (.undecodable e)
  | .ok i => if s.secondSlot && i.words == 2 then .fault .vectorSecondWord else issue i s

/-- One pass of the repeated instruction, from the word REP holds (40_rep.md R237, R240, R242). -/
def runPass (s : State) : Result :=
  match decode s.rep.word 0 with
  | .error _ => .fault .notRepeatable
  | .ok i =>
    if badRepeat i then .fault .notRepeatable
    else if writesLc i then .fault .repeatWritesLc
    else issue i s

/-- The normal and exception states: a pass of REP, a word of a vector, an interrupt to service, or the next
instruction. REP and the two words of a vector are not interrupted (60_exceptions.md R502, R509). -/
def runCore (s : State) : Result :=
  if s.rep.repeating then runPass s
  else if s.vec.isSome then runNext s
  else
    match s.arbitrate with
    | some (q, l) => .next (s.service q l)
    | none => runNext s

/-- A step after the events of its slot: `held` says that the RESET pin is low
(41_program_control.md R283, 70_reset_and_hazards.md R560). -/
def runState (held : Bool) (s : State) : Result :=
  match s.proc with
  | .reset => .next (if held then s else s.release)
  | .stop | .debug => .next s
  | .wait =>
    match s.arbitrate with
    | some (q, l) => .next (s.service q l)
    | none => .next s
  | .normal | .exception => runCore s

/-! ### Placing an instruction -/

/-- Two words stored where the next instruction is fetched. -/
def State.placeWords (w x : Word) (s : State) : State :=
  (s.poke .p s.fetchAddrs.1 w).poke .p s.fetchAddrs.2 x

end Sys2Proof.Machine
end

