-- ==== Sys2Proof/Machine/Step.lean ====
section
/-! DEFINITION. The step of the machine. -/

namespace Sys2Proof.Machine

/-- One step: the events of this step's slot, then what the processing state asks for (00_scope.md R8,
60_exceptions.md R502). -/
def step (s : State) : Host.Outcome State Fault Refusal := runState s.resetLow s.takeSlot

/-- The state with the instruction of spec/opcode_table.json's bits stored where the next step fetches: the
first word in bits 23:0, the second in bits 47:24, every bit from `nbits` up 0 (assumption 7). -/
def State.withFetchWord (s : State) (nbits w : Nat) : State :=
  s.placeWords (BitVec.ofNat 24 (w % 2 ^ nbits)) (BitVec.ofNat 24 (w % 2 ^ nbits / 2 ^ 24))

end Sys2Proof.Machine
end

