-- ==== Sys2Proof/Safety.lean ====
section
/-! DEFINITION. What statements speak of: the legal states, and what an instruction needs to complete. -/

namespace Sys2Proof.Machine

/-! ### Legal states -/

/-- SR's absent bits read 0 (10_state.md R45, R66). -/
def State.srLegal (s : State) : Bool := s.ctl.sr &&& s.plat.srMask == s.ctl.sr

/-- The three memories have their canonical form. -/
def State.memLegal (s : State) : Bool := s.mem.x.wf && s.mem.y.wf && s.mem.p.wf

/-- Vector words are in progress only in the exception state, in the debug state entered from it, or in the normal
state that debug_resume gives, and then one of the two is still to come; the exception state has a vector
(60_exceptions.md R509, R545; assumption 32). -/
def State.vecLegal (s : State) : Bool :=
  match s.vec with
  | none => s.proc != .exception
  | some v => (v.slot == 0 || v.slot == 1) && (s.proc == .exception || s.proc == .debug || s.proc == .normal)

/-- The states the model's invariant admits. -/
def State.legal (s : State) : Bool := s.srLegal && s.memLegal && s.vecLegal

/-! ### What an instruction needs -/

/-- The machine runs its program: no vector word is in progress and nothing is being repeated. -/
def State.plain (s : State) : Bool := s.vec.isNone && !s.rep.repeating

/-- The processing state executes instructions and nothing comes before the next one: no event, no REP pass, no
vector word, no interrupt to service (60_exceptions.md R502). -/
def State.ready (s : State) : Bool :=
  s.plain && s.proc == .normal && s.inbox.isEmpty && s.arbitrate.isNone

/-! ### What an instruction may change -/

/-- What a register holds, in 56 bits: an accumulator whole, a part of one unscaled and unlimited, and SSH and
SSL as the halves of the stack location in use (0 off the stack, where there is no storage, 10_state.md R51). -/
def State.raw (q : Reg) (s : State) : AccVal :=
  match q with
  | .d .x0 => s.dalu.x0.setWidth 56
  | .d .x1 => s.dalu.x1.setWidth 56
  | .d .y0 => s.dalu.y0.setWidth 56
  | .d .y1 => s.dalu.y1.setWidth 56
  | .d .a => s.dalu.a
  | .d .b => s.dalu.b
  | .d .a0 => (accLow s.dalu.a).setWidth 56
  | .d .b0 => (accLow s.dalu.b).setWidth 56
  | .d .a1 => (accMid s.dalu.a).setWidth 56
  | .d .b1 => (accMid s.dalu.b).setWidth 56
  | .d .a2 => (accExt s.dalu.a).setWidth 56
  | .d .b2 => (accExt s.dalu.b).setWidth 56
  | .r k => (s.rReg k).setWidth 56
  | .n k => (s.nReg k).setWidth 56
  | .m k => (s.mReg k).setWidth 56
  | .c .sr => s.ctl.sr.setWidth 56
  | .c .omr => s.ctl.omr.setWidth 56
  | .c .sp => s.ctl.sp.setWidth 56
  | .c .ssh => (stackHalves s).1.setWidth 56
  | .c .ssl => (stackHalves s).2.setWidth 56
  | .c .la => s.ctl.la.setWidth 56
  | .c .lc => s.ctl.lc.setWidth 56
where
  /-- The stack location in use. -/
  stackHalves (s : State) : Addr × Addr := if s.onStack then s.ssPair else (0, 0)

/-- The names under which an accumulator can be read: itself and its parts. -/
def accNames : Acc → List Reg
  | .a => [.d .a, .d .a0, .d .a1, .d .a2]
  | .b => [.d .b, .d .b0, .d .b1, .d .b2]

/-- The stack pointer and what is read through it. -/
def stackRegs : List Reg := [.c .sp, .c .ssh, .c .ssl]

/-- The registers a write of this register may change (10_state.md R38, R51). -/
def writeSet : Reg → List Reg
  | .d .a => accNames .a
  | .d .b => accNames .b
  | .d .a0 => [.d .a0, .d .a]
  | .d .a1 => [.d .a1, .d .a]
  | .d .a2 => [.d .a2, .d .a]
  | .d .b0 => [.d .b0, .d .b]
  | .d .b1 => [.d .b1, .d .b]
  | .d .b2 => [.d .b2, .d .b]
  | .c .sp => stackRegs
  | .c .ssh => stackRegs
  | q => [q]

/-- The registers a read of this register as a move source may change: A and B set S and L, SSH pulls
(10_state.md R35, R51). -/
def readSet : Reg → List Reg
  | .d .a | .d .b => [.c .sr]
  | .c .ssh => stackRegs
  | _ => []

/-- The address register an indirect operand updates (20_memory.md R120). -/
def indSet (i : Ind) : List Reg :=
  match i.mode with
  | .noUpdate | .indexed => []
  | .postSubN | .postAddN | .postDec | .postInc | .preDec => [.r i.reg]

/-- The address register an effective address updates. -/
def eaSet : Ea → List Reg
  | .ind i => indSet i
  | .abs _ => []

/-- The address register a transfer updates. -/
def xferSet : Xfer → List Reg
  | .toReg (.mem ea) | .toMem ea => eaSet ea
  | .toReg (.imm _) => []

/-- The registers a transfer between memory and a register may change, by its direction. -/
def dirSet (w : Dir) (r : Reg) : List Reg :=
  match w with
  | .toReg => writeSet r
  | .toMem => readSet r

/-- The direction of a transfer. -/
def xferDir : Xfer → Dir
  | .toReg _ => .toReg
  | .toMem _ => .toMem

/-- The registers a load of an L: operand writes, or a store of it changes (45_parallel_moves.md R374). -/
def longSet (w : Dir) (l : LOp) : List Reg :=
  match w, l with
  | .toReg, .a10 => [.d .a, .d .a0, .d .a1]
  | .toReg, .b10 => [.d .b, .d .b0, .d .b1]
  | .toReg, .x => [.d .x0, .d .x1]
  | .toReg, .y => [.d .y0, .d .y1]
  | .toReg, .a => accNames .a
  | .toReg, .b => accNames .b
  | .toReg, .ab | .toReg, .ba => accNames .a ++ accNames .b
  | .toMem, .a | .toMem, .b | .toMem, .ab | .toMem, .ba => [.c .sr]
  | .toMem, _ => []

/-- The registers a move field may change (45_parallel_moves.md R368 to R379). -/
def moveSet (mv : ParMove) : List Reg :=
  match mv with
  | .none => []
  | .imm dst _ => writeSet dst.toReg
  | .reg src dst => readSet src.toReg ++ writeSet dst.toReg
  | .upd _ r => [.r r]
  | .xEa x r | .yEa x r => dirSet (xferDir x) r.toReg ++ xferSet x
  | .xAa w _ r | .yAa w _ r => dirSet w r.toReg
  | .lEa w ea l => longSet w l ++ eaSet ea
  | .lAa w _ l => longSet w l
  | .xr ee x _ f => .c .sr :: .d f.toDReg :: (dirSet (xferDir x) (.d ee.toDReg) ++ xferSet x)
  | .ry _ e ff x => .c .sr :: .d e.toDReg :: (dirSet (xferDir x) (.d ff.toDReg) ++ xferSet x)
  | .xr2 d ea | .ry2 d ea => .c .sr :: (accNames d ++ eaSet ea)
  | .xy wx ee mx rx wy ff my ry =>
    dirSet wx (.d ee.toDReg) ++ dirSet wy (.d ff.toDReg) ++
      indSet ⟨mx.toAguMode, rx⟩ ++ indSet ⟨my.toAguMode, otherBank rx ry⟩

/-- The registers an instruction may change: its destinations, the address registers it updates, and the
registers the spec says it changes besides (the stack pointer, LA and LC, the status register). -/
def changeSet (i : Instr) : List Reg :=
  match i.parallel? with
  | some (dst, mv) =>
    moveSet mv ++ (match dst with | some d => accNames d | none => []) ++
      (match i with
       | .tfrAcc .. | .tfrWord .. | .moveNone | .moveImm .. | .moveReg .. | .moveUpd .. | .moveXEa ..
       | .moveXAa .. | .moveYEa .. | .moveYAa .. | .moveLEa .. | .moveLAa .. | .moveXR .. | .moveRY ..
       | .moveXR2 .. | .moveRY2 .. | .moveXY .. => []
       | _ => [.c .sr])
  | none =>
    match i with
    | .jsccShort .. | .jsrShort .. => .c .sr :: stackRegs
    | .jsccEa _ ea | .jsrEa ea => .c .sr :: (stackRegs ++ eaSet ea)
    | .jccEa _ ea | .jmpEa ea => eaSet ea
    | .jssetPp .. | .jssetAa .. | .jsclrPp .. | .jsclrAa .. => .c .sr :: stackRegs
    | .jssetEa _ j _ _ | .jsclrEa _ j _ _ => .c .sr :: (stackRegs ++ indSet j)
    | .jssetReg .. | .jsclrReg .. => .c .sr :: stackRegs
    | .jsetEa _ j _ _ | .jclrEa _ j _ _ => indSet j
    | .jsetReg r _ _ | .jclrReg r _ _ => readSet r
    | .btstPp .. | .btstAa .. | .bchgPp .. | .bchgAa .. | .bsetPp .. | .bsetAa .. | .bclrPp ..
    | .bclrAa .. => [.c .sr]
    | .btstEa _ ea _ | .bchgEa _ ea _ | .bsetEa _ ea _ | .bclrEa _ ea _ => .c .sr :: eaSet ea
    | .btstReg r _ => .c .sr :: readSet r
    | .bchgReg r _ | .bsetReg r _ | .bclrReg r _ => .c .sr :: (readSet r ++ writeSet r)
    | .movepEa _ _ _ x => xferSet x
    | .movepP _ _ _ ea => eaSet ea
    | .movepReg _ _ .toReg r => readSet r
    | .movepReg _ _ .toMem r => writeSet r
    | .movemEa w ea r => dirSet w r ++ eaSet ea
    | .movemAa w _ r => dirSet w r
    | .repReg r => .c .lc :: readSet r
    | .repEa _ j => .c .lc :: indSet j
    | .repImm .. | .repAa .. => [.c .lc]
    | .doReg r _ => .c .la :: .c .lc :: .c .sr :: (stackRegs ++ readSet r)
    | .doEa _ j _ => .c .la :: .c .lc :: .c .sr :: (stackRegs ++ indSet j)
    | .doImm .. | .doAa .. | .enddo => .c .la :: .c .lc :: .c .sr :: stackRegs
    | .movecEa _ x c => dirSet (xferDir x) c.toReg ++ xferSet x
    | .movecAa _ w _ c => dirSet w c.toReg
    | .movecReg .toReg r c => readSet r ++ writeSet c.toReg
    | .movecReg .toMem r c => readSet c.toReg ++ writeSet r
    | .movecImm _ c => writeSet c.toReg
    | .lua _ _ (.r k) => [.r k]
    | .lua _ _ (.n k) => [.n k]
    | .tcc _ _ d => accNames d
    | .tccR _ _ d _ d2 => .r d2 :: accNames d
    | .norm r d => .c .sr :: .r r :: accNames d
    | .divStep _ d | .dec d | .inc d => .c .sr :: accNames d
    | .ori _ .omr | .andi _ .omr => [.c .omr]
    | .ori _ _ | .andi _ _ => [.c .sr]
    | .rts => stackRegs
    | .rti => .c .sr :: stackRegs
    | _ => []

/-! ### Which status bits an instruction may change -/

/-- S and L, where this register is read through the limiter (10_state.md R35, R66). -/
def readBits : Reg → BitVec 16
  | .d .a | .d .b => 0x00C0
  | _ => 0

/-- L, where a bit instruction reads this register through the limiter (47_nonparallel_encoding_only.md R445). -/
def bitReadBits : Reg → BitVec 16
  | .d .a | .d .b => 0x0040
  | _ => 0

/-- The status bits a write of this register may change. -/
def writeBits : Reg → BitVec 16
  | .c .sr => 0xFFFF
  | _ => 0

/-- The status bits a transfer may change. -/
def dirBits (w : Dir) (r : Reg) : BitVec 16 :=
  match w with
  | .toReg => writeBits r
  | .toMem => readBits r

/-- The status bits a move field may change: S and L alone (45_parallel_moves.md R365). -/
def moveBits : ParMove → BitVec 16
  | .none | .imm _ _ | .upd _ _ => 0
  | .reg src _ => readBits src.toReg
  | .xEa x r | .yEa x r => dirBits (xferDir x) r.toReg
  | .xAa w _ r | .yAa w _ r => dirBits w r.toReg
  | .lEa .toMem _ l | .lAa .toMem _ l =>
    match l with
    | .a | .b | .ab | .ba => 0x00C0
    | .a10 | .b10 | .x | .y => 0
  | .lEa .toReg _ _ | .lAa .toReg _ _ => 0
  | .xr _ _ _ _ | .ry _ _ _ _ | .xr2 _ _ | .ry2 _ _ => 0x00C0
  | .xy wx ee _ _ wy ff _ _ => dirBits wx (.d ee.toDReg) ||| dirBits wy (.d ff.toDReg)

/-- What forming a long interrupt clears and sets: LF, DM, T, S1, S0, I1 and I0 (60_exceptions.md R510). -/
def callBits (s : State) : BitVec 16 := if s.vec.isSome then 0xEF00 else 0

/-- The status bits an instruction may change: the flags the spec lists for it, those of its move, and the mode
bits it writes. -/
def statusSet (i : Instr) (s : State) : BitVec 16 :=
  match i.parallel? with
  | some (_, mv) =>
    moveBits mv |||
      (match i with
       | .addAcc .. | .addLong .. | .addWord .. | .adc .. | .addr .. | .addl .. | .subAcc .. | .subLong ..
       | .subWord .. | .sbc .. | .subr .. | .subl .. | .cmpAcc .. | .cmpWord .. | .cmpmAcc .. | .cmpmWord ..
       | .asl .. => 0x007F
       | .asr .. => 0x003F
       | .rnd .. | .absAcc .. | .neg .. | .mpyr .. | .mac .. | .macr .. => 0x007E
       | .tst .. | .clr .. | .mpy .. => 0x003E
       | .andWord .. | .orWord .. | .eorWord .. | .notAcc .. => 0x000E
       | .lsl .. | .lsr .. | .rol .. | .ror .. => 0x000F
       | _ => 0)
  | none =>
    match i with
    | .jsccShort .. | .jsrShort .. | .jsccEa .. | .jsrEa .. | .jssetPp .. | .jssetAa .. | .jsclrPp ..
    | .jsclrAa .. | .jssetEa .. | .jsclrEa .. => callBits s
    | .jssetReg r _ _ | .jsclrReg r _ _ => callBits s ||| bitReadBits r
    | .jsetReg r _ _ | .jclrReg r _ _ => bitReadBits r
    | .repReg r => readBits r
    | .btstPp .. | .btstAa .. | .bchgPp .. | .bchgAa .. | .bsetPp .. | .bsetAa .. | .bclrPp ..
    | .bclrAa .. | .btstEa .. | .bchgEa .. | .bsetEa .. | .bclrEa .. => 0x0001
    | .btstReg r _ => 0x0001 ||| bitReadBits r
    | .bchgReg r n | .bsetReg r n | .bclrReg r n =>
      0x0001 ||| bitReadBits r ||| (if r = .c .sr then BitVec.twoPow 16 n.toNat else 0)
    | .movepReg _ _ .toReg r => readBits r
    | .movepReg _ _ .toMem r => writeBits r
    | .movemEa w _ r | .movemAa w _ r => dirBits w r
    | .doReg r _ => 0x8000 ||| readBits r
    | .doImm .. | .doEa .. | .doAa .. | .enddo => 0x8000
    | .movecEa _ x c => dirBits (xferDir x) c.toReg
    | .movecAa _ w _ c => dirBits w c.toReg
    | .movecReg .toReg r c => readBits r ||| writeBits c.toReg
    | .movecReg .toMem r _ => writeBits r
    | .movecImm _ c => writeBits c.toReg
    | .norm .. => 0x007E
    | .divStep .. => 0x0043
    | .dec .. | .inc .. => 0x007F
    | .ori _ .mr | .andi _ .mr => 0xFF00
    | .ori _ .ccr | .andi _ .ccr => 0x00FF
    | .rti => 0xFFFF
    | _ => 0

/-! ### Where an instruction stores -/

/-- The address an effective address gives in this state; none where its address arithmetic stops. -/
def State.eaStored (sp : Space) (ea : Ea) (s : State) : List (Space × Addr) :=
  match s.resolve ea with
  | .ok (a, _) => [(sp, a)]
  | .error _ => []

/-- The locations a move field stores to. -/
def State.moveStored (mv : ParMove) (s : State) : List (Space × Addr) :=
  match mv with
  | .xEa (.toMem ea) _ | .xr _ (.toMem ea) _ _ | .xr2 _ ea => s.eaStored .x ea
  | .yEa (.toMem ea) _ | .ry _ _ _ (.toMem ea) | .ry2 _ ea => s.eaStored .y ea
  | .xAa .toMem aa _ => [(.x, shortAddr aa)]
  | .yAa .toMem aa _ => [(.y, shortAddr aa)]
  | .lEa .toMem ea _ => s.eaStored .x ea ++ s.eaStored .y ea
  | .lAa .toMem aa _ => [(.x, shortAddr aa), (.y, shortAddr aa)]
  | .xy wx _ mx rx wy _ my ry =>
    (if wx = .toMem then s.eaStored .x (.ind ⟨mx.toAguMode, rx⟩) else []) ++
      (if wy = .toMem then s.eaStored .y (.ind ⟨my.toAguMode, otherBank rx ry⟩) else [])
  | _ => []

/-- The locations an instruction stores to, in memory or in the I/O range (20_memory.md R105). -/
def State.stored (i : Instr) (s : State) : List (Space × Addr) :=
  match i.parallel? with
  | some (_, mv) => s.moveStored mv
  | none =>
    match i with
    | .bchgPp sp pp _ | .bsetPp sp pp _ | .bclrPp sp pp _ => [(sp.toSpace, ioAddr pp)]
    | .bchgAa sp aa _ | .bsetAa sp aa _ | .bclrAa sp aa _ => [(sp.toSpace, shortAddr aa)]
    | .bchgEa sp ea _ | .bsetEa sp ea _ | .bclrEa sp ea _ => s.eaStored sp.toSpace ea
    | .movepEa ps pp _ (.toReg _) | .movepP ps pp .toReg _ | .movepReg ps pp .toReg _ =>
      [(ps.toSpace, ioAddr pp)]
    | .movepEa _ _ es (.toMem ea) => s.eaStored es.toSpace ea
    | .movepP _ _ .toMem ea | .movemEa .toMem ea _ => s.eaStored .p ea
    | .movemAa .toMem aa _ => [(.p, shortAddr aa)]
    | .movecEa sp (.toMem ea) _ => s.eaStored sp.toSpace ea
    | .movecAa sp .toMem aa _ => [(sp.toSpace, shortAddr aa)]
    | _ => []

/-! ### Data-ALU results -/

/-- The accumulators a move field reads through the limiter, in the order of the reads (10_state.md R35). -/
def moveReads (mv : ParMove) : List Acc :=
  match mv with
  | .none | .imm _ _ | .upd _ _ => []
  | .reg src _ => regReads src.toReg
  | .xEa (.toMem _) r | .yEa (.toMem _) r | .xAa .toMem _ r | .yAa .toMem _ r => regReads r.toReg
  | .xEa (.toReg _) _ | .yEa (.toReg _) _ | .xAa .toReg _ _ | .yAa .toReg _ _ => []
  | .lEa .toMem _ l | .lAa .toMem _ l =>
    match l with
    | .a => [.a]
    | .b => [.b]
    | .ab => [.a, .b]
    | .ba => [.b, .a]
    | .a10 | .b10 | .x | .y => []
  | .lEa .toReg _ _ | .lAa .toReg _ _ => []
  | .xr ee (.toMem _) d _ => d :: regReads (.d ee.toDReg)
  | .ry d _ ff (.toMem _) => d :: regReads (.d ff.toDReg)
  | .xr _ (.toReg _) d _ | .ry d _ _ (.toReg _) | .xr2 d _ | .ry2 d _ => [d]
  | .xy wx ee _ _ wy ff _ _ =>
    (if wx = .toMem then regReads (.d ee.toDReg) else []) ++
      (if wy = .toMem then regReads (.d ff.toDReg) else [])
where
  /-- The accumulator a register is, where a move reads it through the limiter. -/
  regReads : Reg → List Acc
    | .d .a => [.a]
    | .d .b => [.b]
    | _ => []

/-- The CCR after 56-bit arithmetic with result `r`: E, U, N and Z from the result, V and C as given, L sticky
with V, S as it was (10_state.md R71). -/
def arithCcr (m : ScaleMode) (k : Ccr) (r : AccVal) (v c : Bool) : Ccr where
  s := k.s
  l := k.l || v
  e := extInUse m r
  u := unnormalized m r
  n := r.getLsbD 55
  z := decide (r = 0)
  v := v
  c := c

/-- The CCR after a 24-bit logical operation with result `w`: N and Z from the 24 bits, V cleared, C as given,
the rest as it was (43_rotate.md R332). -/
def logicCcr (k : Ccr) (w : Word) (c : Bool) : Ccr :=
  { k with n := w.getLsbD 23, z := decide (w = 0), v := false, c := c }

/-- `t` differs from `u` in accumulator `d` (if one is named), in the CCR, and in having moved past `n` words. -/
def aluFrame (d : Option Acc) (n : Nat) (u t : State) : Prop :=
  t = { u.advance n with
        dalu := (match d with
          | some d => u.dalu.setAcc d (t.acc d)
          | none => u.dalu)
        ctl := { (u.advance n).ctl with sr := t.ctl.sr } } ∧
    t.ctl.sr.extractLsb' 8 8 = u.ctl.sr.extractLsb' 8 8

/-- A word with bit `n` replaced and every other bit kept. -/
def oneBit (old new : Word) (n : Nat) (b : Bool) : Prop :=
  ∀ k < 24, new.getLsbD k = if k = n then b else old.getLsbD k

/-! ### The reserved scaling mode -/

/-- The data-ALU operations but ROL and ROR: those that S1:S0 = 11 stops (10_state.md R45, 42_arithmetic.md R292,
43_rotate.md R333; assumption 11). -/
def needsScale (i : Instr) : Bool :=
  match i with
  | .rol .. | .ror .. => false
  | .moveNone | .moveImm .. | .moveReg .. | .moveUpd .. | .moveXEa .. | .moveXAa .. | .moveYEa .. | .moveYAa ..
  | .moveLEa .. | .moveLAa .. | .moveXR .. | .moveRY .. | .moveXR2 .. | .moveRY2 .. | .moveXY .. => false
  | .inc .. | .dec .. | .divStep .. | .norm .. => true
  | _ => i.parallel?.isSome

/-! ### Extension words of class P instructions -/

/-- A move field with MMMRRR = 110000 or 110100 (30_encoding.md R152). -/
def hasExtension : ParMove → Prop
  | .xEa x _ | .yEa x _ | .xr _ x _ _ | .ry _ _ _ x => encXfer x = 0b110000 ∨ encXfer x = 0b110100
  | .lEa _ ea _ | .xr2 _ ea | .ry2 _ ea => encEa ea = 0b110000 ∨ encEa ea = 0b110100
  | _ => False

/-! ### Events and marks -/

/-- The event requests an interrupt of this source (00_scope.md R8, 60_exceptions.md R504). -/
def requests (e : HostEvent) (q : Source) : Prop :=
  e = .irqaLow ∧ q = .irqa ∨ e = .irqbLow ∧ q = .irqb ∨ e = .nmi ∧ q = .nmi ∨ e = .irq q ∧ q.maskable = true

/-- MOVEC, MOVEM or MOVEP with this register as its destination (70_reset_and_hazards.md R581). -/
def movesTo (i : Instr) (q : Reg) : Prop :=
  (∃ c, c.toReg = q ∧
    ((∃ sp x, i = .movecEa sp (.toReg x) c) ∨ (∃ sp aa, i = .movecAa sp .toReg aa c) ∨
      (∃ r, i = .movecReg .toReg r c) ∨ (∃ n, i = .movecImm n c))) ∨
  (∃ c, i = .movecReg .toMem q c) ∨ (∃ ea, i = .movemEa .toReg ea q) ∨ (∃ aa, i = .movemAa .toReg aa q) ∨
  (∃ sp pp, i = .movepReg sp pp .toMem q)

/-- MOVEC, MOVEM or MOVEP with this register as its source (R581). -/
def movesFrom (i : Instr) (q : Reg) : Prop :=
  (∃ c, c.toReg = q ∧
    ((∃ sp ea, i = .movecEa sp (.toMem ea) c) ∨ (∃ sp aa, i = .movecAa sp .toMem aa c) ∨
      (∃ r, i = .movecReg .toMem r c))) ∨
  (∃ c, i = .movecReg .toReg q c) ∨ (∃ ea, i = .movemEa .toMem ea q) ∨ (∃ aa, i = .movemAa .toMem aa q) ∨
  (∃ sp pp, i = .movepReg sp pp .toReg q)

/-- BCHG, BCLR or BSET on this register (R581). -/
def bitWrites (i : Instr) (q : Reg) : Prop := ∃ n, i = .bchgReg q n ∨ i = .bclrReg q n ∨ i = .bsetReg q n

/-- JCLR, JSET, JSCLR or JSSET on this register (R574). -/
def bitJumpOn (i : Instr) (q : Reg) : Prop :=
  ∃ n a, i = .jclrReg q n a ∨ i = .jsetReg q n a ∨ i = .jsclrReg q n a ∨ i = .jssetReg q n a

/-- A parallel move with this register as its destination (45_parallel_moves.md R364). -/
def moveWrites (mv : ParMove) (q : Reg) : Prop :=
  ∃ r : Reg5, r.toReg = q ∧
    ((∃ n, mv = .imm r n) ∨ (∃ p, mv = .reg p r) ∨ (∃ x, mv = .xEa (.toReg x) r) ∨ (∃ aa, mv = .xAa .toReg aa r) ∨
      (∃ x, mv = .yEa (.toReg x) r) ∨ (∃ aa, mv = .yAa .toReg aa r))

/-- The instruction writes this AGU register as a move: a parallel move's destination, MOVEC, MOVEM, LUA, and Tcc's
second destination when the condition holds; not MOVEP, not NORM, not an address update (70_reset_and_hazards.md
R578; assumption 39). -/
def marksAgu (i : Instr) (s : State) (q : Reg) : Prop :=
  (∃ k, q = .r k ∨ q = .n k ∨ q = .m k) ∧
    ((∃ d mv, i.parallel? = some (d, mv) ∧ moveWrites mv q) ∨
      (movesTo i q ∧ ∀ sp pp w r, i ≠ .movepReg sp pp w r) ∨
      (∃ mm k j, i = .lua mm k (.r j) ∧ q = .r j ∨ i = .lua mm k (.n j) ∧ q = .n j) ∨
      (∃ c src d s2 d2, i = .tccR c src d s2 d2 ∧ condHolds c s.ccr = true ∧ q = .r d2))

/-- Not at LA-2, LA-1 and LA of a DO loop (70_reset_and_hazards.md R568, and R567 for jumps, returns and REP SSH;
assumption 15). -/
def listedNearLoopEnd (i : Instr) : Prop :=
  isDo i = true ∨ isJump i = true ∨ isBitJump i = true ∨ i = .rti ∨ i = .rts ∨
    (∃ c, (movesTo i (.c c) ∨ bitWrites i (.c c)) ∧ c ∈ [.la, .lc, .sr, .sp, .ssh, .ssl]) ∨
    movesFrom i (.c .ssh) ∨ (∃ n, i = .btstReg (.c .ssh) n) ∨ i = .repReg (.c .ssh) ∨
    (∃ n, i = .andi n .mr ∨ i = .ori n .mr)

/-- Not at LA of a DO loop (70_reset_and_hazards.md R569). -/
def listedAtLoopEnd (i : Instr) : Prop :=
  i.words = 2 ∨ isJump i = true ∨ isRep i = true ∨ i ∈ [.reset, .rti, .rts, .stop, .wait]

/-- Not in a fast interrupt routine (70_reset_and_hazards.md R579). -/
def listedInVector (i : Instr) : Prop :=
  isDo i = true ∨ i ∈ [.enddo, .rti, .rts, .stop, .swi, .wait] ∨
    (∃ c, movesTo i (.c c) ∧ c ∈ [.la, .lc, .ssh, .ssl, .sp, .sr]) ∨ movesFrom i (.c .ssh) ∨
    (∃ n e, e ∈ [.mr, .ccr] ∧ (i = .andi n e ∨ i = .ori n e))

/-! ### Shapes of bit instructions and of subroutine jumps -/

/-- `t` is the state after a subroutine jump of `n` words that pushes `saved` for SR: outside a vector, PC past the
instruction and `saved` on the stack; in a vector, a long interrupt (47_nonparallel_encoding_only.md R468,
60_exceptions.md R510). -/
def calls (n : Nat) (target : Addr) (saved : BitVec 16) (s t : State) : Prop :=
  (s.vec = none → t = (s.push (s.ctl.pc + BitVec.ofNat 16 n) saved).setPc target) ∧
  (∀ v, s.vec = some v → t = s.longInterrupt v target saved)

/-- The four forms of a bit instruction change one bit of their operand by `f` and put the bit as it was into C
(47_nonparallel_encoding_only.md R445). -/
def changesOneBit (pp : DSpace → BitVec 6 → BitVec 5 → Instr) (ea : DSpace → Ea → BitVec 5 → Instr)
    (aa : DSpace → BitVec 6 → BitVec 5 → Instr) (reg : Reg → BitVec 5 → Instr) (f : Bool → Bool) : Prop :=
  ∀ (s : State) (n : BitVec 5), n.toNat < 24 →
    (∀ (sp : DSpace) (i : Instr) (len : Nat) (a : Addr) (u : State),
      (∃ x, i = pp sp x n ∧ len = 1 ∧ a = 0xFFC0 + x.setWidth 16 ∧ u = s) ∨
        (∃ x, i = aa sp x n ∧ len = 1 ∧ a = x.setWidth 16 ∧ u = s) ∨
        (∃ x, i = ea sp x n ∧ len = 1 + x.extra ∧ s.resolve x = .ok (a, u)) →
      ∃ w, oneBit (u.loadData sp a).1 w n.toNat (f ((u.loadData sp a).1.getLsbD n.toNat)) ∧
        exec i s = .next ((((u.loadData sp a).2.storeData sp a w).setC
          ((u.loadData sp a).1.getLsbD n.toNat)).advance len)) ∧
    (∀ (r : Reg) (v : Word) (u : State), s.readBitReg r = .ok (v, u) →
      ∃ w, oneBit v w n.toNat (f (v.getLsbD n.toNat)) ∧
        (r ≠ .c .sr →
          exec (reg r n) s = .next (((u.setC (v.getLsbD n.toNat)).writeReg r w).advance 1)) ∧
        (r = .c .sr → s.srLegal = true →
          ∃ t, exec (reg r n) s = .next t ∧
            t.ctl.sr = putBit (putBit s.ctl.sr 0 (v.getLsbD n.toNat)) n.toNat (f (v.getLsbD n.toNat)) &&&
              s.plat.srMask ∧
            t = { s.advance 1 with ctl := { (s.advance 1).ctl with sr := t.ctl.sr } }))

/-- What the four forms of a bit-test jump test: the bit, and the state after the operand is read. -/
def testedBit (pp : DSpace → BitVec 6 → BitVec 5 → Addr → Instr) (ea : DSpace → Ind → BitVec 5 → Addr → Instr)
    (aa : DSpace → BitVec 6 → BitVec 5 → Addr → Instr) (reg : Reg → BitVec 5 → Addr → Instr)
    (target : Addr) (i : Instr) (b : Bool) (s u : State) : Prop :=
  ∃ n : BitVec 5,
    (∃ sp x, i = pp sp x n target ∧
      (s.loadData sp (0xFFC0 + x.setWidth 16)).1.getLsbD n.toNat = b ∧
      u = (s.loadData sp (0xFFC0 + x.setWidth 16)).2) ∨
    (∃ sp x, i = aa sp x n target ∧ (s.peek sp.toSpace (x.setWidth 16)).getLsbD n.toNat = b ∧ u = s) ∨
    (∃ sp x a w, i = ea sp x n target ∧ s.resolveInd x = .ok (a, w) ∧
      (w.loadData sp a).1.getLsbD n.toNat = b ∧ u = (w.loadData sp a).2) ∨
    (∃ r v, i = reg r n target ∧ s.readBitReg r = .ok (v, u) ∧ v.getLsbD n.toNat = b)

end Sys2Proof.Machine
end

