-- ==== Sys2Proof/Certificates/Slice0/Obligations.lean ====
section
/-! DEFINITION. The statements for the provers, in the order of OBLIGATIONS.json. A statement that rests on a
choice of the model, or on a rule the spec gives from general knowledge, is `derived` there and its docstring
names the log entry. -/

open Sys2Proof Sys2Proof.Machine

/-! ### Encoding -/

/-- Decoding what `encode` writes gives the instruction back, for every well-formed instruction, whatever word
follows a one-word instruction (30_encoding.md R150 to R205). -/
def Obligations.DecodeOfEncodeIsTheInstruction : Prop :=
  ∀ (i : Instr) (x : Word), i.wf → decode (encode i).1 ((encode i).2.getD x) = .ok i

/-- Words of every family, written out from the figures of 30_encoding.md, decode to their instructions; most of the
class P words are those of 45_parallel_moves.md R385. -/
def Obligations.WordsOfTheSpecDecode : Prop :=
  decode 0x60CA64 0 = .ok (.subWord .x1 .a (.xEa (.toReg (.mem (.ind ⟨.postAddN, 2⟩))) (.r 0))) ∧
  decode 0x7D7D06 0 = .ok (.subr .a (.yEa (.toMem (.ind ⟨.preDec, 5⟩)) (.n 5))) ∧
  decode 0x72F437 0x00013A = .ok (.rol .a (.xEa (.toReg (.imm 0x00013A)) (.n 2))) ∧
  decode 0x17B411 0x123456 = .ok (.rnd .a (.xr .x1 (.toReg (.imm 0x123456)) .b .y1)) ∧
  decode 0x14EC09 0 = .ok (.tfrAcc .b (.ry .a .x1 .y0 (.toReg (.mem (.ind ⟨.indexed, 4⟩))))) ∧
  decode 0x40043D 0 = .ok (.sbc .y .b (.lAa .toMem 4 .a10)) ∧
  decode 0xB41687 0 = .ok (.macr true .x0x0 .a (.xy .toMem .x1 .dec 6 .toMem .y0 .inc 0)) ∧
  decode 0b001010101001110000000000 0 = .ok (.moveImm (.d .a2) 0x9C) ∧
  decode 0b001000000100111000000000 0 = .ok (.moveUpd .addN 6) ∧
  decode 0b001000101001111100000000 0 = .ok (.moveReg (.r 4) (.n 7)) ∧
  decode 0b000010010001010100000000 0 = .ok (.moveXR2 .b (.ind ⟨.postDec, 5⟩)) ∧
  decode 0b001000000000000011100101 0 = .ok (.mpyr true .x1y0 .a .none) ∧
  decode 0x0C0123 0 = .ok (.jmpShort 0x123) ∧
  decode 0x0AEAA6 0 = .ok (.jccEa .lc (.ind ⟨.indexed, 2⟩)) ∧
  decode 0x0D0040 0 = .ok (.jsrShort 0x040) ∧
  decode 0b000010111111000010101110 0x12BEEF = .ok (.jsccEa .ls (.abs 0xBEEF)) ∧
  decode 0b000010101010110110010100 0x994321 = .ok (.jclrPp .x 0b101101 20 0x4321) ∧
  decode 0b000010100010101011100010 0xFFFFFE = .ok (.jsetAa .y 42 2 0xFFFE) ∧
  decode 0b000010111111110000001010 0x001000 = .ok (.jsclrReg (.c .ssh) 10 0x1000) ∧
  decode 0b000010110100001111110111 0x000042 = .ok (.jssetEa .y ⟨.postSubN, 3⟩ 23 0x0042) ∧
  decode 0x060380 0x000104 = .ok (.doImm 3 0x0104) ∧
  decode 0x0613A0 0 = .ok (.repImm 19) ∧
  decode 0b000001101101101100100000 0 = .ok (.repReg (.n 3)) ∧
  decode 0x0A1020 0 = .ok (.bsetAa .x 0x10 0) ∧
  decode 0x0B1021 0 = .ok (.btstAa .x 0x10 1) ∧
  decode 0b000001011111010000100011 0x0000FF = .ok (.movecEa .x (.toReg (.imm 0x0000FF)) (.m 3)) ∧
  decode 0b000001001100011110111010 0 = .ok (.movecReg .toReg (.d .y1) (.c .omr)) ∧
  decode 0b000001111100011010111110 0 = .ok (.movemEa .toReg (.ind ⟨.postSubN, 6⟩) (.c .la)) ∧
  decode 0b000010000111000011111110 0x000100 = .ok (.movepEa .x 0b111110 .y (.toMem (.abs 0x0100))) ∧
  decode 0b000010010110100101000101 0 = .ok (.movepP .y 5 .toMem (.ind ⟨.indexed, 1⟩)) ∧
  decode 0x044811 0 = .ok (.lua .addN 0 (.r 1)) ∧
  decode 0x037041 0 = .ok (.tccR .gt (.word .x0) .a 0 1) ∧
  decode 0b000000011101101100011101 0 = .ok (.norm 3 .b) ∧
  decode 0b000000011000000001100000 0 = .ok (.divStep .x1 .a) ∧
  decode 0b000000010001001111101110 0 = .ok (.macImm true 2 .b 19) ∧
  decode 0b000000010000011111001001 0 = .ok (.mpyrImm false 0 .b 7) ∧
  decode 0b000000000000000000001011 0 = .ok (.dec .b) ∧
  decode 0x0008F8 0 = .ok (.ori 8 .mr) ∧
  decode 0b000000001111111010111001 0 = .ok (.andi 0xFE .ccr) ∧
  decode 0b000000000000001100001100 0 = .ok (.debugcc .nr) ∧
  decode 0x000004 0 = .ok .rti

/-- The bits M2, M1 and M0 of the seven indirect modes, and of the absolute and the immediate form: M2 is 0 for the
modes that update Rn afterwards; M1 is 0 for the modes with the register offset Nn and for No Update; M0 is 0 for
minus, 1 for plus and for predecrement (20_memory.md R121). -/
def Obligations.ModeBitsFollowTheNotes : Prop :=
  (∀ (f : BitVec 3) (m : AguMode), decMode f = some m ↔ encMode m = f) ∧
  (∀ m : AguMode,
     ((encMode m).getLsbD 2 = false ↔ m ∈ [.postSubN, .postAddN, .postDec, .postInc]) ∧
     ((encMode m).getLsbD 1 = false ↔ m ∈ [.postSubN, .postAddN, .indexed, .noUpdate]) ∧
     (m ∈ [.postSubN, .postDec] → (encMode m).getLsbD 0 = false) ∧
     (m ∈ [.postAddN, .postInc, .indexed, .preDec] → (encMode m).getLsbD 0 = true)) ∧
  (∀ (a : Addr) (v : Word),
     (encEa (.abs a)).getLsbD 5 = true ∧ (encEa (.abs a)).getLsbD 4 = true ∧
     (encEaImm (.imm v)).getLsbD 5 = true ∧ (encEaImm (.imm v)).getLsbD 4 = true)

/-- A class P instruction has an extension word exactly when its X:, Y:, L:, X:R or R:Y move has MMMRRR = 110000 or
110100; with an X:Y:, I, R, U or NOP move it never has one (30_encoding.md R152). -/
def Obligations.ExtensionWordsBelongToTheMove : Prop :=
  ∀ (i : Instr) (d : Option Acc) (mv : ParMove), i.parallel? = some (d, mv) →
    (i.words = 2 ↔ hasExtension mv) ∧ (i.words = 1 ↔ ¬hasExtension mv) ∧
    ((encode i).2.isSome = true ↔ hasExtension mv)

/-! ### The step -/

/-- When nothing comes before it, the step runs the instruction that the words at PC hold: the sequence checks,
the instruction's own effect, and `retire` after it; and it refuses a word that is no instruction, under the name
of what is wrong with it. That a restricted sequence stops with a fault before it runs is the spec's decision D12
(00_scope.md R9, 70_reset_and_hazards.md R566; the model's form of it is assumption 14); that an undefined word is
refused and raises no interrupt is decision D15 (30_encoding.md R210; assumption 42). -/
def Obligations.StepRunsTheDecodedInstruction : Prop :=
  (∀ (s : State) (i : Instr), s.ready = true →
     decode (s.peek .p s.ctl.pc) (s.peek .p (s.ctl.pc + 1)) = .ok i →
     (∀ r, hazard i s = some r → step s = .fault (.restricted r)) ∧
     (hazard i s = none →
       (∀ t, exec i s = .next t → step s = .next (retire i s t)) ∧
       (∀ f, exec i s = .fault f → step s = .fault f) ∧
       (∀ r, exec i s = .refused r → step s = .refused r))) ∧
  (∀ (s : State) (e : DecodeError), s.ready = true →
     decode (s.peek .p s.ctl.pc) (s.peek .p (s.ctl.pc + 1)) = .error e →
     step s = .refused (.undecodable e))

/-- Outside a DO loop, and inside one where the instruction's last word is not at LA (47_nonparallel_encoding_only.md
R462, from general knowledge, assumption 12), what the step adds to an instruction's own effect is the marks for the
next instruction's checks (70_reset_and_hazards.md R566, R578), the cycle count and, with T = 1, the trace exception
(60_exceptions.md R506, from general knowledge; assumptions 13 and 20). The same after an instruction at LA that cleared
LF or changed LA itself, which is the model's choice (assumption 16). -/
def Obligations.StepAddsMarksAndTrace : Prop :=
  ∀ (s t : State) (i : Instr), s.ready = true →
    decode (s.peek .p s.ctl.pc) (s.peek .p (s.ctl.pc + 1)) = .ok i → hazard i s = none →
    exec i s = .next t →
    s.lf = false ∨ s.ctl.pc + BitVec.ofNat 16 (i.words - 1) ≠ s.ctl.la ∨ t.lf = false ∨ t.ctl.la ≠ s.ctl.la →
    ∃ u, step s = .next u ∧
      u = { t with prev := prevOf i, aguWritten := aguMoved i s, clock := t.clock + s.cycles i,
                   pending := u.pending } ∧
      ∀ q, u.isPending q = (t.isPending q || (s.tr && q == .trace))

/-- Outside an interrupt vector, whose words leave PC alone, an instruction that is no jump and no return moves PC
past its words, modulo 65536 (30_encoding.md R153; the wrap is the spec's decision D14 in 10_state.md R43,
assumption 42). -/
def Obligations.PcMovesPastTheWords : Prop :=
  ∀ (i : Instr) (s t : State), s.vec = none → changesFlow i = false → exec i s = .next t →
    t.ctl.pc = s.ctl.pc + BitVec.ofNat 16 i.words

/-! ### Invariants and reset -/

/-- The state after reset is legal, and holds the values of 10_state.md R90 (given there from general knowledge;
assumption 13). The registers that R90 leaves unspecified are not mentioned (assumption 2). -/
def Obligations.ResetStateIsLegalAndAsListed : Prop :=
  (State.reset.legal = true) ∧
  (State.reset.ctl.sr = 0x0300 ∧ State.reset.ctl.sp = 0 ∧
   State.reset.ctl.omr = State.reset.plat.modePins.setWidth 8 ∧
   State.reset.ctl.pc = State.reset.plat.resetPc ∧ (∀ k, State.reset.mReg k = 0xFFFF) ∧
   State.reset.ipr = 0 ∧ State.reset.bcr = 0xFFFF ∧ State.reset.proc = .normal ∧
   (∀ q, State.reset.isPending q = false))

/-- Every step from a legal state, with any events of the host, leads to a legal state: the absent bits of SR stay 0,
the memories keep their canonical form, and vector words stand only where they may; and no step changes the parameters
of the implementation (00_scope.md R11; where vector words may stand is assumption 32). -/
def Obligations.EveryStepKeepsTheStateLegal : Prop :=
  ∀ s t : State, s.legal = true → step s = .next t → t.legal = true ∧ t.plat = s.plat

/-- The RESET pin, in any processing state and inside a REP or a vector: the registers of
70_reset_and_hazards.md R560 take their reset values and the others stay; once the pin is released, fetch
begins at the reset vector (given there from general knowledge; assumption 23). -/
def Obligations.ResetPinResetsTheCore : Prop :=
  ∀ (s : State) (rest : List (List HostEvent)), s.inbox = [.resetPin] :: rest →
    (∃ t, step s = .next t ∧
      t.proc = .reset ∧ t.rep.repeating = false ∧ t.vec = none ∧ (∀ q, t.isPending q = false) ∧
      t.prev = Prev.none ∧ t.aguWritten = none ∧ t.ctl.sr = 0x0300 ∧
      t.ctl.omr = s.plat.modePins.setWidth 8 ∧ t.ctl.sp = 0 ∧ (∀ k, t.mReg k = 0xFFFF) ∧ t.ipr = 0 ∧
      t.bcr = 0xFFFF ∧ t.outbox = .peripheralReset :: s.outbox ∧ t.dalu = s.dalu ∧ t.agu.r = s.agu.r ∧
      t.agu.n = s.agu.n ∧ t.ctl.la = s.ctl.la ∧ t.ctl.lc = s.ctl.lc ∧ t.ctl.stack = s.ctl.stack ∧
      t.rep.temp = s.rep.temp ∧ t.mem = s.mem ∧ t.inbox = rest ∧
      (rest = [] → ∃ u, step t = .next u ∧ u.ctl.pc = s.plat.resetPc ∧ u.proc = .normal ∧
        u = { t with ctl := { t.ctl with pc := s.plat.resetPc }, proc := .normal }))

/-! ### Frames of every instruction -/

/-- No instruction changes a word of memory, IPR or BCR, but at the locations it stores to; RESET clears IPR, and that
it leaves BCR alone is the spec's decision D18 (assumption 42). -/
def Obligations.MemoryFrame : Prop :=
  ∀ (i : Instr) (s t : State), exec i s = .next t →
    (∀ sp a, (sp, a) ∉ s.stored i → t.peek sp a = s.peek sp a) ∧
    ((.x, bcrAddr) ∉ s.stored i → t.bcr = s.bcr) ∧
    ((.x, iprAddr) ∉ s.stored i → i ≠ .reset → t.ipr = s.ipr)

/-- No instruction changes a register but those of its `changeSet`. The sets of the instructions whose pages are not in
the source are from general knowledge (assumption 12). -/
def Obligations.RegisterFrame : Prop :=
  ∀ (i : Instr) (s t : State) (q : Reg), exec i s = .next t → q ∉ changeSet i →
    t.raw q = s.raw q

/-- No instruction changes a bit of the status register but those of its `statusSet`. Two of its entries are the
model's choices: BTST, BCHG, BCLR, BSET and the bit-test jumps on A or B leave S alone (assumption 43, beside decision
D2), and a bit instruction on SR changes C and its one bit and no other (assumption 26). The sets of the instructions
whose pages are not in the source are from general knowledge (assumption 12). -/
def Obligations.StatusFrame : Prop :=
  ∀ (i : Instr) (s t : State) (k : Nat), s.srLegal = true → exec i s = .next t →
    (statusSet i s).getLsbD k = false → t.ctl.sr.getLsbD k = s.ctl.sr.getLsbD k

/-- What an instruction's own effect leaves alone of the hidden state: the marks, the inbox, the parameters and
the cycle count always; the REP state but for REP; the processing state but for STOP, WAIT, DEBUG and a jump
that forms a long interrupt; and it starts no vector. -/
def Obligations.HiddenStateFrame : Prop :=
  ∀ (i : Instr) (s t : State), exec i s = .next t →
    t.prev = s.prev ∧ t.aguWritten = s.aguWritten ∧ t.inbox = s.inbox ∧ t.plat = s.plat ∧
    t.clock = s.clock ∧ (isRep i = false → t.rep = s.rep) ∧
    (s.vec = none → t.vec = none) ∧
    (s.vec = none → i ≠ .stop → i ≠ .wait → i ≠ .debug → (∀ k, i ≠ .debugcc k) → t.proc = s.proc)

/-- A move field completes whenever the scaling mode is not the reserved one and the address arithmetic of its
operands is defined. It changes no flag but S and L: L is set when a read of A or B limits and kept once set, S goes
through `S_BIT_FN` at each read in turn, which in the default definition takes up the exclusive or of two bits and is
kept once set (45_parallel_moves.md R365; S is assumption 10, the limiter's ranges assumption 13). -/
def Obligations.MovesCompleteAndChangeOnlySAndL : Prop :=
  ∀ (mv : ParMove) (m : ScaleMode) (s : State), s.scale = .ok m →
    ((∀ j ∈ moveInds mv, ∃ a, s.stepped j.mode j.reg = .ok a) → ∃ u, s.runMove mv = .ok u) ∧
    (∀ u, s.srLegal = true → s.runMove mv = .ok u →
      (u.ctl.sr ^^^ s.ctl.sr) &&& 0xFF3F = 0 ∧
      u.ccr.l = (s.ccr.l || (moveReads mv).any fun d => extInUse m (s.acc d)) ∧
      u.ccr.s = (s.plat.hasSBit &&
        (moveReads mv).foldl (fun b d => s.plat.sBitFn.next b m (s.acc d)) s.ccr.s) ∧
      (s.plat.sBitFn = .family →
        u.ccr.s = (s.ccr.s || (s.plat.hasSBit && (moveReads mv).any fun d => scaleBit m (s.acc d)))))

/-- S1:S0 = 11 is reserved: there every data-ALU operation stops but ROL and ROR, whatever its move, and so does
every read of A or B through the limiter; by the model's choice also INC, DEC, DIV and NORM stop, and Tcc does not
(10_state.md R45, 42_arithmetic.md R292, 43_rotate.md R333; assumption 11). -/
def Obligations.ReservedScalingModeStops : Prop :=
  ∀ s : State,
    (s.scale = .error .scalingReserved ↔ s.srBit 11 = true ∧ s.srBit 10 = true) ∧
    (s.srBit 11 = true → s.srBit 10 = true →
      (∀ i, needsScale i = true → exec i s = .fault .scalingReserved) ∧
      (∀ d : Acc, s.readLimited d = .error .scalingReserved ∧ s.readReg (.d d.toDReg) = .error .scalingReserved ∧
        s.readBitReg (.d d.toDReg) = .error .scalingReserved) ∧
      (∀ l : LOp, l ∈ [.a, .b, .ab, .ba] → s.readLong l = .error .scalingReserved) ∧
      (∀ k src d s2 d2, (∃ t, exec (.tcc k src d) s = .next t) ∧ ∃ t, exec (.tccR k src d s2 d2) s = .next t))

/-! ### Operands -/

/-- A read of A or B as a 24-bit move source is the accumulator divided by 2^24, 2^25 or 2^23 by the scaling mode,
rounded down and clamped to 24 bits; as a 48-bit source it is the accumulator, its half or its double, clamped to
48 bits (10_state.md R35, R36, whose ranges are from general knowledge; assumption 13). -/
def Obligations.LimitersClamp : Prop :=
  (∀ (m : ScaleMode) (v : AccVal),
     (limit24 m v).toInt =
       max (-2 ^ 23) (min (2 ^ 23 - 1)
         (v.toInt / (match m with | .off => 2 ^ 24 | .down => 2 ^ 25 | .up => 2 ^ 23)))) ∧
  (∀ (m : ScaleMode) (v : AccVal),
     (limit48 m v).toInt =
       max (-2 ^ 47) (min (2 ^ 47 - 1)
         (match m with | .off => v.toInt | .down => v.toInt / 2 | .up => v.toInt * 2)))

/-- E says that the result does not fit the fraction, and E and U are both clear exactly when it is normalized:
its magnitude stands in the top half of the fraction's range. U, whatever E is, says that the two highest bits of the
fraction are equal: the value modulo the fraction's range lies in its first or its last quarter (10_state.md R64, R65,
whose bit ranges are from general knowledge; assumption 13). -/
def Obligations.ExtensionAndNormalizationByRange : Prop :=
  ∀ (m : ScaleMode) (r : AccVal),
    let top : Int := match m with | .off => 2 ^ 47 | .down => 2 ^ 48 | .up => 2 ^ 46
    (extInUse m r = true ↔ r.toInt < -top ∨ top ≤ r.toInt) ∧
    (unnormalized m r = true ↔ r.toInt % (2 * top) < top / 2 ∨ 3 * (top / 2) ≤ r.toInt % (2 * top)) ∧
    (extInUse m r = false ∧ unnormalized m r = false ↔
      (top / 2 ≤ r.toInt ∧ r.toInt < top) ∨ (-top ≤ r.toInt ∧ r.toInt < -(top / 2)))

/-- Rounding gives a nearest multiple of twice the rounding constant, the even one of two equally near, modulo
2^56 (42_arithmetic.md R295; clearing the bits up to the rounding position is the spec's decision D19, assumption 42). -/
def Obligations.RoundingIsToNearestEven : Prop :=
  ∀ (m : ScaleMode) (d : AccVal),
    let unit : Int := match m with | .off => 2 ^ 24 | .down => 2 ^ 25 | .up => 2 ^ 23
    ∃ k : Int, round56 m d = BitVec.ofInt 56 (k * unit) ∧
      -unit ≤ 2 * (d.toInt - k * unit) ∧ 2 * (d.toInt - k * unit) ≤ unit ∧
      (2 * (d.toInt - k * unit) = unit ∨ 2 * (d.toInt - k * unit) = -unit → k % 2 = 0)

/-- The conditions: the code with 8 added is the negation, and the eight predicates of the table
(10_state.md R74; the complement on E is from general knowledge, assumption 13). -/
def Obligations.ConditionsFollowTheTable : Prop :=
  ∀ f : Ccr,
    (∀ c : BitVec 4, condHolds (decCond (c + 8)) f = !condHolds (decCond c) f) ∧
    (condHolds (decCond 0) f = true ↔ f.c = false) ∧
    (condHolds (decCond 1) f = true ↔ f.n = f.v) ∧
    (condHolds (decCond 2) f = true ↔ f.z = false) ∧
    (condHolds (decCond 3) f = true ↔ f.n = false) ∧
    (condHolds (decCond 4) f = true ↔ f.z = false ∧ (f.u = true ∨ f.e = true)) ∧
    (condHolds (decCond 5) f = true ↔ f.e = false) ∧
    (condHolds (decCond 6) f = true ↔ f.l = false) ∧
    (condHolds (decCond 7) f = true ↔ f.z = false ∧ f.n = f.v)

/-- Address arithmetic by Mn: linear, reverse carry, the reserved modifiers, and modulo M + 1 in blocks of 2^j,
where inside the buffer an offset of at most the modulus stays inside, at the same place modulo M + 1, a longer one
moves by whole blocks or is refused, and so is an Rn outside the buffer (20_memory.md R124, R125, from general
knowledge; assumptions 13 and 35). -/
def Obligations.AddressArithmeticFollowsTheModifier : Prop :=
  (∀ (r k m : Addr) (sub : Bool),
     (m = 0xFFFF → aguAdd r k sub m = .ok (if sub then r - k else r + k)) ∧
     (m = 0 → ∃ t, aguAdd r k sub m = .ok t ∧
       ∀ j < 16, t.getLsbD j =
         (if sub then r.reverse - k.reverse else r.reverse + k.reverse).getLsbD (15 - j)) ∧
     (0x8000 ≤ m.toNat → m.toNat ≤ 0xFFFE → aguAdd r k sub m = .error .modifierReserved)) ∧
  (∀ (r k m : Addr) (sub : Bool) (j : Nat), 1 ≤ m.toNat → m.toNat < 0x8000 →
     m.toNat + 1 ≤ 2 ^ j → 2 ^ j < 2 * (m.toNat + 1) →
     let off : Int := if sub then -k.toInt else k.toInt
     (m.toNat < r.toNat % 2 ^ j → aguAdd r k sub m = .error .outsideModulo) ∧
     (r.toNat % 2 ^ j ≤ m.toNat →
       (off.natAbs ≤ m.toNat + 1 →
         ∃ t, aguAdd r k sub m = .ok t ∧ t.toNat / 2 ^ j = r.toNat / 2 ^ j ∧ t.toNat % 2 ^ j ≤ m.toNat ∧
           ((t.toNat : Int) - r.toNat - off) % (m.toNat + 1) = 0) ∧
       (m.toNat + 1 < off.natAbs →
         (off.natAbs % 2 ^ j = 0 → aguAdd r k sub m = .ok (r + BitVec.ofInt 16 off)) ∧
         (off.natAbs % 2 ^ j ≠ 0 → aguAdd r k sub m = .error .moduloOffset))))

/-- The address an indirect mode uses and Rn after it: the old Rn for the post-update modes, the new one for
predecrement, the sum for the indexed mode, which like No Update leaves Rn alone (20_memory.md R120). -/
def Obligations.AddressingModesUseAndUpdateRn : Prop :=
  ∀ (s : State) (k : BitVec 3) (t : Addr),
    (s.resolveInd ⟨.noUpdate, k⟩ = .ok (s.rReg k, s)) ∧
    (aguAdd (s.rReg k) (s.nReg k) true (s.mReg k) = .ok t →
      s.resolveInd ⟨.postSubN, k⟩ = .ok (s.rReg k, s.setR k t)) ∧
    (aguAdd (s.rReg k) (s.nReg k) false (s.mReg k) = .ok t →
      s.resolveInd ⟨.postAddN, k⟩ = .ok (s.rReg k, s.setR k t) ∧
      s.resolveInd ⟨.indexed, k⟩ = .ok (t, s)) ∧
    (aguAdd (s.rReg k) 1 true (s.mReg k) = .ok t →
      s.resolveInd ⟨.postDec, k⟩ = .ok (s.rReg k, s.setR k t) ∧
      s.resolveInd ⟨.preDec, k⟩ = .ok (t, s.setR k t)) ∧
    (aguAdd (s.rReg k) 1 false (s.mReg k) = .ok t →
      s.resolveInd ⟨.postInc, k⟩ = .ok (s.rReg k, s.setR k t)) ∧
    (∀ a, s.resolve (.abs a) = .ok (a, s))

/-- A register written by a move holds what its width takes of the word, the accumulators the word as a
fraction, and no other register changes; SSH goes to a new stack location. A register read by a move gives its word, or
its 16, 8 or 6 bits zero-extended, A2 and B2 sign-extended, A and B scaled and limited with L and S set; SSH is pulled;
nothing else changes. Bit instructions read the same, but A2 and B2 zero-extended and S left alone (10_state.md R35,
R37, R38, R40, R51, R58, R66, 45_parallel_moves.md R363, 47_nonparallel_encoding_only.md R442; the widths and extensions
are from general knowledge, assumption 13; assumptions 5, 10, 25, 29, 34 and 43). -/
def Obligations.RegistersAreReadAndWrittenByWidth : Prop :=
  (∀ (s : State) (w : Word),
    (∀ x, x = .x0 ∨ x = .x1 ∨ x = .y0 ∨ x = .y1 ∨ x = .a0 ∨ x = .a1 ∨ x = .b0 ∨ x = .b1 →
      (s.writeReg (.d x) w).raw (.d x) = w.setWidth 56) ∧
    (∀ x, x = .a2 ∨ x = .b2 → (s.writeReg (.d x) w).raw (.d x) = (w.setWidth 8).setWidth 56) ∧
    (∀ x, x = .a ∨ x = .b → (s.writeReg (.d x) w).raw (.d x) = BitVec.ofInt 56 (w.toInt * 2 ^ 24)) ∧
    (∀ q, (∃ k, q = .r k ∨ q = .n k ∨ q = .m k) ∨ q = .c .la ∨ q = .c .lc →
      (s.writeReg q w).raw q = (w.setWidth 16).setWidth 56) ∧
    (s.writeReg (.c .omr) w).raw (.c .omr) = (w.setWidth 8).setWidth 56 ∧
    (s.writeReg (.c .sp) w).raw (.c .sp) = (w.setWidth 6).setWidth 56 ∧
    (s.writeReg (.c .sr) w).raw (.c .sr) = (w.setWidth 16 &&& s.plat.srMask).setWidth 56 ∧
    (s.onStack = true → (s.writeReg (.c .ssl) w).raw (.c .ssl) = (w.setWidth 16).setWidth 56) ∧
    (s.ssLoc.toNat < s.plat.stackDepth.val →
      (s.writeReg (.c .ssh) w).raw (.c .ssh) = (w.setWidth 16).setWidth 56) ∧
    (s.writeReg (.c .ssh) w).ctl.sp = s.ctl.sp + 1 ∧
    (∀ r q, q ∉ writeSet r → (s.writeReg r w).raw q = s.raw q)) ∧
  (∀ (s : State) (q : Reg),
     (q ∈ [.d .x0, .d .x1, .d .y0, .d .y1, .d .a0, .d .a1, .d .b0, .d .b1, .c .sr, .c .omr, .c .sp, .c .la, .c .lc] ∨
         (∃ k, q = .r k ∨ q = .n k ∨ q = .m k) →
       ∃ v : Word, s.readReg q = .ok (v, s) ∧ v.toNat = (s.raw q).toNat) ∧
     (q ∉ [.d .a, .d .b, .d .a2, .d .b2] → s.readBitReg q = s.readReg q)) ∧
  (∀ s : State,
     (∀ x d, x = DReg.a2 ∧ d = Acc.a ∨ x = .b2 ∧ d = .b →
       (∃ v : Word, s.readReg (.d x) = .ok (v, s) ∧ v.toInt = (accExt (s.acc d)).toInt) ∧
       (∃ v : Word, s.readBitReg (.d x) = .ok (v, s) ∧ v.toNat = (accExt (s.acc d)).toNat)) ∧
     (∀ (d : Acc) (m : ScaleMode), s.scale = .ok m → s.srLegal = true →
       (∃ u, s.readReg (.d d.toDReg) = .ok (limit24 m (s.acc d), u) ∧
         u = { s with ctl := { s.ctl with sr := u.ctl.sr } } ∧ (u.ctl.sr ^^^ s.ctl.sr) &&& 0xFF3F = 0 ∧
         u.ccr.l = (s.ccr.l || extInUse m (s.acc d)) ∧
         u.ccr.s = (s.plat.hasSBit && s.plat.sBitFn.next s.ccr.s m (s.acc d))) ∧
       (∃ u, s.readBitReg (.d d.toDReg) = .ok (limit24 m (s.acc d), u) ∧
         u = { s with ctl := { s.ctl with sr := u.ctl.sr } } ∧ (u.ctl.sr ^^^ s.ctl.sr) &&& 0xFFBF = 0 ∧
         u.ccr.l = (s.ccr.l || extInUse m (s.acc d)))) ∧
     (∃ (v w : Word) (u x : State), s.readReg (.c .ssh) = .ok (v, u) ∧ s.readReg (.c .ssl) = .ok (w, x) ∧
       (s.onStack = true →
         v.toNat = s.ssPair.1.toNat ∧ u = { s with ctl := { s.ctl with sp := s.ctl.sp - 1 } } ∧
         w.toNat = s.ssPair.2.toNat ∧ x = s) ∧
       (s.onStack = false →
         v.toNat = (Config.ssEmptyHi s.draws).toNat ∧ u.ctl.sp = s.ctl.sp - 1 ∧
         u = { s with ctl := { s.ctl with sp := u.ctl.sp }, draws := s.draws + 1, pending := u.pending } ∧
         w.toNat = (Config.ssEmptyLo s.draws).toNat ∧ x = { s with draws := s.draws + 1 })))

/-- Data memory and the I/O range: a store is read back, every other word stays; BCR and IPR keep 16 bits and
are read zero-extended; any other I/O address is one message to the platform and no memory access
(20_memory.md R104, R107, whose widths are
from general knowledge; assumptions 4 and 13). -/
def Obligations.StoresAreReadBack : Prop :=
  ∀ (s : State) (sp : DSpace) (a : Addr) (v : Word),
    (isIo a = false →
      (s.storeData sp a v).loadData sp a = (v, s.storeData sp a v) ∧
      ∀ sp' a', (sp', a') ≠ (sp.toSpace, a) → (s.storeData sp a v).peek sp' a' = s.peek sp' a') ∧
    (s.storeData .x bcrAddr v).loadData .x bcrAddr =
      ((v.setWidth 16).setWidth 24, { s with bcr := v.setWidth 16 }) ∧
    (s.storeData .x iprAddr v).loadData .x iprAddr =
      ((v.setWidth 16).setWidth 24, { s with ipr := v.setWidth 16 }) ∧
    (isIo a = true → (sp, a) ≠ (.x, bcrAddr) → (sp, a) ≠ (.x, iprAddr) →
      s.storeData sp a v = { s with outbox := .write sp a v :: s.outbox } ∧
      (s.loadData sp a).2 = { s with outbox := .read sp a :: s.outbox, draws := s.draws + 1 })

/-! ### Data-ALU instructions with a parallel move

In each, `u` is the state after the move alone (42_arithmetic.md R290): the results are computed from `s`, S and L
are those the move left, and `aluFrame` says what else differs from `u`. -/

/-- SUB and SBC: the difference modulo 2^56 of the accumulator and the operand (and the borrow, for SBC); V when
the exact difference does not fit in 56 bits, C when it borrows. SUBR: the same of one half of the accumulator and
the other one (42_arithmetic.md R299, R302, R316; the order beside the move, the sticky L and V over 56 bits are the
spec's decisions D8, D1 and D3, assumption 42; the ranges of E and U are assumption 13). -/
def Obligations.SubtractionsWriteTheDifference : Prop :=
  (∀ (s u : State) (m : ScaleMode) (mv : ParMove) (d : Acc) (i : Instr) (x : AccVal) (c : Bool),
     (i = .subAcc d mv ∧ x = s.acc d.other ∧ c = false ∨
       (∃ l, i = .subLong l d mv ∧ x = ext48 (s.dalu.long l) ∧ c = false) ∨
       (∃ w, i = .subWord w d mv ∧ x = ext24 (s.dalu.word w) ∧ c = false) ∨
       (∃ l, i = .sbc l d mv ∧ x = ext48 (s.dalu.long l) ∧ c = s.ccr.c)) →
     s.srLegal = true → s.scale = .ok m → s.runMove mv = .ok u →
     ∃ t, exec i s = .next t ∧ aluFrame (some d) (1 + mv.extra) u t ∧
       t.acc d = BitVec.ofInt 56 ((s.acc d).toInt - x.toInt - c.toNat) ∧
       t.ccr = arithCcr m u.ccr (t.acc d) (overflow56 ((s.acc d).toInt - x.toInt - c.toNat))
         (decide ((s.acc d).toNat < x.toNat + c.toNat))) ∧
  (∀ (s u : State) (m : ScaleMode) (mv : ParMove) (d : Acc), s.srLegal = true → s.scale = .ok m →
     s.runMove mv = .ok u →
     ∃ t, exec (.subr d mv) s = .next t ∧ aluFrame (some d) (1 + mv.extra) u t ∧
       t.acc d = BitVec.ofInt 56 ((s.acc d).toInt / 2 - (s.acc d.other).toInt) ∧
       t.ccr = arithCcr m u.ccr (t.acc d)
         (overflow56 ((s.acc d).toInt / 2 - (s.acc d.other).toInt))
         (decide ((BitVec.ofInt 56 ((s.acc d).toInt / 2)).toNat < (s.acc d.other).toNat)))

/-- ADD and ADC: the sum modulo 2^56; V when the exact sum does not fit in 56 bits, C the carry out of bit 55. ADDL and
ADDR: the same of twice, and of one half of, the accumulator and the other one; for ADDL, V also when the shift changes
bit 55 (46_data_alu_encoding_only.md R403 to R406, from general knowledge; assumption 12). SUBL: twice the accumulator
less the other one, V as for ADDL, C the borrow in every case (42_arithmetic.md R308, R311; the carry after a shift that
overflows is the spec's decision D21. Of all five, the order beside the move, the sticky L and V over 56 bits are
decisions D8, D1 and D3, assumption 42; the ranges of E and U are assumption 13). -/
def Obligations.AdditionsAndSublWriteTheResult : Prop :=
  (∀ (s u : State) (m : ScaleMode) (mv : ParMove) (d : Acc) (i : Instr) (x : AccVal) (c : Bool),
     (i = .addAcc d mv ∧ x = s.acc d.other ∧ c = false ∨
       (∃ l, i = .addLong l d mv ∧ x = ext48 (s.dalu.long l) ∧ c = false) ∨
       (∃ w, i = .addWord w d mv ∧ x = ext24 (s.dalu.word w) ∧ c = false) ∨
       (∃ l, i = .adc l d mv ∧ x = ext48 (s.dalu.long l) ∧ c = s.ccr.c)) →
     s.srLegal = true → s.scale = .ok m → s.runMove mv = .ok u →
     ∃ t, exec i s = .next t ∧ aluFrame (some d) (1 + mv.extra) u t ∧
       t.acc d = BitVec.ofInt 56 ((s.acc d).toInt + x.toInt + c.toNat) ∧
       t.ccr = arithCcr m u.ccr (t.acc d) (overflow56 ((s.acc d).toInt + x.toInt + c.toNat))
         (decide (2 ^ 56 ≤ (s.acc d).toNat + x.toNat + c.toNat))) ∧
  (∀ (s u : State) (m : ScaleMode) (mv : ParMove) (d : Acc), s.srLegal = true → s.scale = .ok m →
     s.runMove mv = .ok u →
     (∃ t, exec (.subl d mv) s = .next t ∧ aluFrame (some d) (1 + mv.extra) u t ∧
       t.acc d = BitVec.ofInt 56 (2 * (s.acc d).toInt - (s.acc d.other).toInt) ∧
       t.ccr = arithCcr m u.ccr (t.acc d)
         (overflow56 ((BitVec.ofInt 56 (2 * (s.acc d).toInt)).toInt - (s.acc d.other).toInt) ||
           ((s.acc d).getLsbD 55 != (s.acc d).getLsbD 54))
         (decide ((BitVec.ofInt 56 (2 * (s.acc d).toInt)).toNat < (s.acc d.other).toNat))) ∧
     (∃ t, exec (.addl d mv) s = .next t ∧ aluFrame (some d) (1 + mv.extra) u t ∧
       t.acc d = BitVec.ofInt 56 (2 * (s.acc d).toInt + (s.acc d.other).toInt) ∧
       t.ccr = arithCcr m u.ccr (t.acc d)
         (overflow56 ((BitVec.ofInt 56 (2 * (s.acc d).toInt)).toInt + (s.acc d.other).toInt) ||
           ((s.acc d).getLsbD 55 != (s.acc d).getLsbD 54))
         (decide (2 ^ 56 ≤ (BitVec.ofInt 56 (2 * (s.acc d).toInt)).toNat + (s.acc d.other).toNat))) ∧
     (∃ t, exec (.addr d mv) s = .next t ∧ aluFrame (some d) (1 + mv.extra) u t ∧
       t.acc d = BitVec.ofInt 56 ((s.acc d).toInt / 2 + (s.acc d.other).toInt) ∧
       t.ccr = arithCcr m u.ccr (t.acc d)
         (overflow56 ((s.acc d).toInt / 2 + (s.acc d.other).toInt))
         (decide (2 ^ 56 ≤ (BitVec.ofInt 56 ((s.acc d).toInt / 2)).toNat + (s.acc d.other).toNat))))

/-- CMP and CMPM: the flags of the difference of the values, and of the magnitudes; nothing is written
(46_data_alu_encoding_only.md R410, R411, from general knowledge; assumption 12; the order beside the move, the sticky L
and V over 56 bits are the spec's decisions D8, D1 and D3, assumption 42). -/
def Obligations.ComparesSetFlagsOnly : Prop :=
  ∀ (s u : State) (m : ScaleMode) (mv : ParMove) (d : Acc) (i : Instr) (p q : AccVal),
    (i = .cmpAcc d mv ∧ p = s.acc d ∧ q = s.acc d.other ∨
      (∃ w, i = .cmpWord w d mv ∧ p = s.acc d ∧ q = ext24 (s.dalu.word w)) ∨
      (i = .cmpmAcc d mv ∧ p = BitVec.ofNat 56 (s.acc d).toInt.natAbs ∧
        q = BitVec.ofNat 56 (s.acc d.other).toInt.natAbs) ∨
      (∃ w, i = .cmpmWord w d mv ∧ p = BitVec.ofNat 56 (s.acc d).toInt.natAbs ∧
        q = BitVec.ofNat 56 (ext24 (s.dalu.word w)).toInt.natAbs)) →
    s.srLegal = true → s.scale = .ok m → s.runMove mv = .ok u →
    ∃ t, exec i s = .next t ∧ aluFrame none (1 + mv.extra) u t ∧
      t.ccr = arithCcr m u.ccr (BitVec.ofInt 56 (p.toInt - q.toInt)) (overflow56 (p.toInt - q.toInt))
        (decide (p.toNat < q.toNat))

/-- TST: the flags of the accumulator itself, V cleared, C kept; nothing is written (42_arithmetic.md R321; the
accumulator as it was beside a move and the sticky L are the spec's decisions D8 and D1, assumption 42; the ranges of
E and U are assumption 13). -/
def Obligations.TestSetsFlagsOnly : Prop :=
  ∀ (s u : State) (m : ScaleMode) (mv : ParMove) (d : Acc), s.srLegal = true → s.scale = .ok m →
    s.runMove mv = .ok u →
    ∃ t, exec (.tst d mv) s = .next t ∧ aluFrame none (1 + mv.extra) u t ∧
      t.ccr = arithCcr m u.ccr (s.acc d) false u.ccr.c ∧ u.ccr.c = s.ccr.c

/-- CLR, ABS, NEG, ASL and ASR (46_data_alu_encoding_only.md R402, R408, R409, R412, R416, from general
knowledge; assumption 12), and RND, whose V says that the sum with the rounding constant does not fit in 56 bits
(42_arithmetic.md R290, R294 to R296; the accumulator as it was beside a move is the spec's decision D8, the bits that
rounding clears in the scaled modes are D19, the sticky L is D1 and V over 56 bits is D3, assumption 42; the ranges of E
and U are assumption 13). In the reserved scaling mode all stop (assumption 11). -/
def Obligations.OneOperandArithmetic : Prop :=
  ∀ (s u : State) (m : ScaleMode) (mv : ParMove) (d : Acc), s.srLegal = true → s.scale = .ok m →
    s.runMove mv = .ok u →
    (∃ t, exec (.clr d mv) s = .next t ∧ aluFrame (some d) (1 + mv.extra) u t ∧ t.acc d = 0 ∧
      t.ccr = { u.ccr with e := false, u := true, n := false, z := true, v := false }) ∧
    (∃ t, exec (.absAcc d mv) s = .next t ∧ aluFrame (some d) (1 + mv.extra) u t ∧
      t.acc d = BitVec.ofInt 56 (s.acc d).toInt.natAbs ∧
      t.ccr = arithCcr m u.ccr (t.acc d) (decide ((s.acc d).toInt = -2 ^ 55)) s.ccr.c) ∧
    (∃ t, exec (.neg d mv) s = .next t ∧ aluFrame (some d) (1 + mv.extra) u t ∧
      t.acc d = BitVec.ofInt 56 (-(s.acc d).toInt) ∧
      t.ccr = arithCcr m u.ccr (t.acc d) (decide ((s.acc d).toInt = -2 ^ 55)) s.ccr.c) ∧
    (∃ t, exec (.asl d mv) s = .next t ∧ aluFrame (some d) (1 + mv.extra) u t ∧
      t.acc d = BitVec.ofInt 56 (2 * (s.acc d).toInt) ∧
      t.ccr = arithCcr m u.ccr (t.acc d) ((s.acc d).getLsbD 55 != (s.acc d).getLsbD 54)
        ((s.acc d).getLsbD 55)) ∧
    (∃ t, exec (.asr d mv) s = .next t ∧ aluFrame (some d) (1 + mv.extra) u t ∧
      (t.acc d).toInt = (s.acc d).toInt / 2 ∧
      t.ccr = arithCcr m u.ccr (t.acc d) false ((s.acc d).getLsbD 0)) ∧
    (∃ t, exec (.rnd d mv) s = .next t ∧ aluFrame (some d) (1 + mv.extra) u t ∧
      t.acc d = round56 m (s.acc d) ∧
      t.ccr = arithCcr m u.ccr (t.acc d)
        (overflow56 ((s.acc d).toInt + (match m with | .off => 2 ^ 23 | .down => 2 ^ 24 | .up => 2 ^ 22)))
        s.ccr.c)

/-- AND, OR, EOR, NOT, LSL and LSR work on bits 47:24 alone, the same in the three scaling modes
(46_data_alu_encoding_only.md R407, R413 to R415, R418, R419, from general knowledge; assumption 12; the order beside
the move is the spec's decision D8, assumption 42; in the reserved mode they stop, assumption 11). -/
def Obligations.LogicWorksOnTheMiddleWord : Prop :=
  ∀ (s u : State) (m : ScaleMode) (mv : ParMove) (d : Acc) (i : Instr) (r : Word) (c : Bool),
    (∃ w, i = .andWord w d mv ∧ r = accMid (s.acc d) &&& s.dalu.word w ∧ c = s.ccr.c) ∨
      (∃ w, i = .orWord w d mv ∧ r = accMid (s.acc d) ||| s.dalu.word w ∧ c = s.ccr.c) ∨
      (∃ w, i = .eorWord w d mv ∧ r = accMid (s.acc d) ^^^ s.dalu.word w ∧ c = s.ccr.c) ∨
      (i = .notAcc d mv ∧ r = BitVec.ofNat 24 (2 ^ 24 - 1 - (accMid (s.acc d)).toNat) ∧ c = s.ccr.c) ∨
      (i = .lsl d mv ∧ r = BitVec.ofNat 24 (2 * (accMid (s.acc d)).toNat) ∧ c = (s.acc d).getLsbD 47) ∨
      (i = .lsr d mv ∧ r = BitVec.ofNat 24 ((accMid (s.acc d)).toNat / 2) ∧ c = (s.acc d).getLsbD 24) →
    s.srLegal = true → s.scale = .ok m → s.runMove mv = .ok u →
    ∃ t, exec i s = .next t ∧ aluFrame (some d) (1 + mv.extra) u t ∧
      accMid (t.acc d) = r ∧ accExt (t.acc d) = accExt (s.acc d) ∧ accLow (t.acc d) = accLow (s.acc d) ∧
      t.ccr = logicCcr u.ccr r c

/-- ROL and ROR rotate bits 47:24 through C, also in the reserved scaling mode where their move reads no accumulator
(43_rotate.md R330 to R333, the last a derivation of the spec; assumption 11; the order beside the move is decision D8,
assumption 42). -/
def Obligations.RotatesGoThroughCarry : Prop :=
  ∀ (s u : State) (mv : ParMove) (d : Acc), s.srLegal = true → s.runMove mv = .ok u →
    (∃ t, exec (.rol d mv) s = .next t ∧ aluFrame (some d) (1 + mv.extra) u t ∧
      (accMid (t.acc d)).toNat = (2 * (accMid (s.acc d)).toNat + s.ccr.c.toNat) % 2 ^ 24 ∧
      accExt (t.acc d) = accExt (s.acc d) ∧ accLow (t.acc d) = accLow (s.acc d) ∧
      t.ccr = logicCcr u.ccr (accMid (t.acc d)) ((s.acc d).getLsbD 47)) ∧
    (∃ t, exec (.ror d mv) s = .next t ∧ aluFrame (some d) (1 + mv.extra) u t ∧
      (accMid (t.acc d)).toNat = (accMid (s.acc d)).toNat / 2 + s.ccr.c.toNat * 2 ^ 23 ∧
      accExt (t.acc d) = accExt (s.acc d) ∧ accLow (t.acc d) = accLow (s.acc d) ∧
      t.ccr = logicCcr u.ccr (accMid (t.acc d)) ((s.acc d).getLsbD 24))

/-- TFR copies 56 bits, or a word as a fraction, past the limiter; of the flags only the move's S and L change. Tcc does
the same when its condition holds, and copies an address register beside it, and does nothing when it does not hold; no
flag changes (44_transfer.md R340, R341, R343, R350, R351; the word as a fraction is a derivation of the spec; that TFR
copies the accumulator as it was beside a move is its decision D8, assumption 42; that Tcc runs in the reserved scaling
mode and TFR does not is assumption 11). -/
def Obligations.TransfersCopyUnlimited : Prop :=
  (∀ (s u : State) (m : ScaleMode) (mv : ParMove) (d : Acc), s.scale = .ok m → s.runMove mv = .ok u →
     (∃ t, exec (.tfrAcc d mv) s = .next t ∧ aluFrame (some d) (1 + mv.extra) u t ∧
       t.acc d = s.acc d.other ∧ t.ctl.sr = u.ctl.sr) ∧
     (∀ w, ∃ t, exec (.tfrWord w d mv) s = .next t ∧ aluFrame (some d) (1 + mv.extra) u t ∧
       (t.acc d).toInt = (s.dalu.word w).toInt * 2 ^ 24 ∧ t.ctl.sr = u.ctl.sr)) ∧
  (∀ (s : State) (k : Cond) (src : TSrc) (d : Acc) (s2 d2 : BitVec 3),
     (condHolds k s.ccr = false →
       exec (.tcc k src d) s = .next (s.advance 1) ∧
       exec (.tccR k src d s2 d2) s = .next (s.advance 1)) ∧
     (condHolds k s.ccr = true →
       ∃ v : AccVal, (src = .other → v = s.acc d.other) ∧
         (∀ w, src = .word w → v.toInt = (s.dalu.word w).toInt * 2 ^ 24) ∧
         exec (.tcc k src d) s = .next ((s.setAcc d v).advance 1) ∧
         exec (.tccR k src d s2 d2) s = .next (((s.setAcc d v).setR d2 (s.rReg s2)).advance 1)))

/-- MPY, MPYR, MAC and MACR: the doubled product of the signed words of the pair, negated or not, alone or added
to the accumulator, rounded or not; C kept (46_data_alu_encoding_only.md R420 to R424, from general knowledge;
assumptions 12 and 41; the order beside the move, the bits that rounding
clears, the sticky L and V over 56 bits are the spec's decisions D8, D19, D1 and D3, assumption 42; SR's DM bit changes
nothing, assumption 30). -/
def Obligations.MultipliesFollowTheProduct : Prop :=
  ∀ (s u : State) (m : ScaleMode) (mv : ParMove) (d : Acc) (q : MulPair) (neg : Bool),
    s.srLegal = true → s.scale = .ok m → s.runMove mv = .ok u →
    let f := s.dalu.factors q
    let p : Int := (if neg then -1 else 1) * (2 * (f.1.toInt * f.2.toInt))
    let sum : Int := (s.acc d).toInt + p
    (∃ t, exec (.mpy neg q d mv) s = .next t ∧ aluFrame (some d) (1 + mv.extra) u t ∧
      (t.acc d).toInt = p ∧ t.ccr = arithCcr m u.ccr (t.acc d) false s.ccr.c) ∧
    (∃ t, exec (.mpyr neg q d mv) s = .next t ∧ aluFrame (some d) (1 + mv.extra) u t ∧
      t.acc d = round56 m (BitVec.ofInt 56 p) ∧ t.ccr = arithCcr m u.ccr (t.acc d) false s.ccr.c) ∧
    (∃ t, exec (.mac neg q d mv) s = .next t ∧ aluFrame (some d) (1 + mv.extra) u t ∧
      t.acc d = BitVec.ofInt 56 sum ∧ t.ccr = arithCcr m u.ccr (t.acc d) (overflow56 sum) s.ccr.c) ∧
    (∃ t, exec (.macr neg q d mv) s = .next t ∧ aluFrame (some d) (1 + mv.extra) u t ∧
      t.acc d = round56 m (BitVec.ofInt 56 sum) ∧
      t.ccr = arithCcr m u.ccr (t.acc d)
        (overflow56 sum || roundV m (BitVec.ofInt 56 sum)) s.ccr.c)

/-- The multiplies by a power of two: their one-word pattern is decoded, whatever word follows, and they are refused
in every state, since the source gives them no operand tables (47_nonparallel_encoding_only.md R472). -/
def Obligations.PowerOfTwoMultipliesAreRefused : Prop :=
  ∀ (s : State) (neg : Bool) (qq : BitVec 2) (d : Acc) (sh : BitVec 5) (x : Word),
    let word := fun (op : BitVec 2) =>
      decode (0b00000001000#11 ++ sh ++ 0b11#2 ++ qq ++ encAcc d ++ BitVec.ofBool neg ++ op) x
    (word 0b00 = .ok (.mpyImm neg qq d sh) ∧ word 0b01 = .ok (.mpyrImm neg qq d sh) ∧
      word 0b10 = .ok (.macImm neg qq d sh) ∧ word 0b11 = .ok (.macrImm neg qq d sh)) ∧
    (∀ i ∈ [Instr.macImm neg qq d sh, .macrImm neg qq d sh, .mpyImm neg qq d sh, .mpyrImm neg qq d sh],
      i.words = 1 ∧ exec i s = .refused .powerOfTwoMultiply)

/-! ### Data-ALU instructions without a parallel move -/

/-- INC and DEC: one added and one taken away, with the flags of ADD and SUB. DIV, one step: the accumulator doubled
with C brought in, plus the divisor where the signs differ and less it where they agree; C is the complement of the new
sign, V says that the doubling changed bit 55; no other flag changes but L (47_nonparallel_encoding_only.md R451 to
R453, from general knowledge; assumption 12; the sticky L and V over 56 bits are the spec's decisions D1 and D3,
assumption 42; in the reserved scaling mode they stop, assumption 11). -/
def Obligations.CountAndDivideSteps : Prop :=
  (∀ (s : State) (m : ScaleMode) (d : Acc), s.srLegal = true → s.scale = .ok m →
     (∃ t, exec (.inc d) s = .next t ∧ aluFrame (some d) 1 s t ∧
       t.acc d = BitVec.ofInt 56 ((s.acc d).toInt + 1) ∧
       t.ccr = arithCcr m s.ccr (t.acc d) (decide ((s.acc d).toInt = 2 ^ 55 - 1))
         (decide ((s.acc d).toInt = -1))) ∧
     (∃ t, exec (.dec d) s = .next t ∧ aluFrame (some d) 1 s t ∧
       t.acc d = BitVec.ofInt 56 ((s.acc d).toInt - 1) ∧
       t.ccr = arithCcr m s.ccr (t.acc d) (decide ((s.acc d).toInt = -2 ^ 55))
         (decide ((s.acc d).toInt = 0)))) ∧
  (∀ (s : State) (m : ScaleMode) (w : WReg) (d : Acc), s.srLegal = true → s.scale = .ok m →
     let x := (s.dalu.word w).toInt * 2 ^ 24
     let doubled := 2 * (s.acc d).toInt + s.ccr.c.toNat
     let differ := (s.acc d).getLsbD 55 != (s.dalu.word w).getLsbD 23
     let v := (s.acc d).getLsbD 55 != (s.acc d).getLsbD 54
     ∃ t, exec (.divStep w d) s = .next t ∧ aluFrame (some d) 1 s t ∧
       t.acc d = BitVec.ofInt 56 (if differ then doubled + x else doubled - x) ∧
       t.ccr = { s.ccr with v := v, l := s.ccr.l || v, c := !(t.acc d).getLsbD 55 })

/-- NORM, one step, decided by E, U and Z as they stand: a shift left with Rn counted down, a shift right with Rn
counted up, or no shift; the flags are set in each case, C kept (47_nonparallel_encoding_only.md R454, from general
knowledge; assumptions 12 and 38; the sticky L is the spec's decision D1, assumption 42). -/
def Obligations.NormalizeStep : Prop :=
  ∀ (s : State) (m : ScaleMode) (k : BitVec 3) (d : Acc), s.srLegal = true → s.scale = .ok m →
    ∃ t v, exec (.norm k d) s = .next t ∧
      t.ccr = arithCcr m s.ccr (t.acc d) v s.ccr.c ∧
      (s.ccr.e = false → s.ccr.u = true → s.ccr.z = false →
        aluFrame (some d) 1 (s.setR k (s.rReg k - 1)) t ∧
        t.acc d = BitVec.ofInt 56 (2 * (s.acc d).toInt) ∧
        v = ((s.acc d).getLsbD 55 != (s.acc d).getLsbD 54)) ∧
      (s.ccr.e = true → aluFrame (some d) 1 (s.setR k (s.rReg k + 1)) t ∧
        (t.acc d).toInt = (s.acc d).toInt / 2 ∧ v = false) ∧
      (s.ccr.e = false → s.ccr.u = false ∨ s.ccr.z = true →
        aluFrame (some d) 1 s t ∧ t.acc d = s.acc d ∧ v = false)

/-! ### Moves -/

/-- MOVE without a move field, of an immediate short datum (a fraction for X0, X1, Y0, Y1, A and B, an integer
for the others), between registers, and of an address register update; and LUA, which leaves its source alone unless
its destination is its own source: that Rn is then written is the model's choice (assumption 44)
(45_parallel_moves.md R368 to R371; 47_nonparallel_encoding_only.md R475, from general knowledge, assumption 12). -/
def Obligations.RegisterMoves : Prop :=
  ∀ s : State,
    exec .moveNone s = .next (s.advance 1) ∧
    (∀ (dst : Reg5) (i : BitVec 8), ∃ w : Word,
      (w.toNat = if dst ∈ [.d .x0, .d .x1, .d .y0, .d .y1, .d .a, .d .b] then i.toNat * 2 ^ 16 else i.toNat) ∧
      exec (.moveImm dst i) s = .next ((s.writeReg dst.toReg w).advance 1)) ∧
    (∀ (src dst : Reg5) (v : Word) (u : State), s.readReg src.toReg = .ok (v, u) →
      exec (.moveReg src dst) s = .next ((u.writeReg dst.toReg v).advance 1)) ∧
    (∀ (mm : UMode) (r : BitVec 3) (a : Addr), s.stepped mm.toAguMode r = .ok a →
      exec (.moveUpd mm r) s = .next ((s.setR r a).advance 1) ∧
      (∀ k, exec (.lua mm r (.r k)) s = .next ((s.setR k a).advance 1)) ∧
      (∀ k, exec (.lua mm r (.n k)) s = .next ((s.setN k a).advance 1)))

/-- X: and Y: moves: the word at the address, or the extension word, goes to the register; or the register's value,
read before the address register is updated, goes to the address, and every other word of memory stays
(45_parallel_moves.md R372, R373; that the old register is read and the old Rn updated is the spec's decision D8,
45_parallel_moves.md R361, assumption 42; the short addresses are below the I/O range). -/
def Obligations.MemoryMoves : Prop :=
  (∀ (s : State) (r : Reg5),
     (∀ (ea : Ea) (a : Addr) (u : State), s.resolve ea = .ok (a, u) →
       exec (.moveXEa (.toReg (.mem ea)) r) s =
         .next (((u.loadData .x a).2.writeReg r.toReg (u.loadData .x a).1).advance (1 + ea.extra)) ∧
       exec (.moveYEa (.toReg (.mem ea)) r) s =
         .next (((u.loadData .y a).2.writeReg r.toReg (u.loadData .y a).1).advance (1 + ea.extra))) ∧
     (∀ v : Word,
       exec (.moveXEa (.toReg (.imm v)) r) s = .next ((s.writeReg r.toReg v).advance 2) ∧
       exec (.moveYEa (.toReg (.imm v)) r) s = .next ((s.writeReg r.toReg v).advance 2)) ∧
     (∀ aa : BitVec 6,
       exec (.moveXAa .toReg aa r) s =
         .next ((s.writeReg r.toReg (s.peek .x (aa.setWidth 16))).advance 1) ∧
       exec (.moveYAa .toReg aa r) s =
         .next ((s.writeReg r.toReg (s.peek .y (aa.setWidth 16))).advance 1))) ∧
  (∀ (s u : State) (sp : DSpace) (r : Reg5) (v : Word), s.readReg r.toReg = .ok (v, u) →
     (∀ (ea : Ea) (a : Addr) (w : State), u.resolve ea = .ok (a, w) →
       ∃ t, exec (match sp with | .x => .moveXEa (.toMem ea) r | .y => .moveYEa (.toMem ea) r) s = .next t ∧
         t = (w.storeData sp a v).advance (1 + ea.extra) ∧
         (isIo a = false → t.peek sp.toSpace a = v) ∧
         ∀ sp' a', (sp', a') ≠ (sp.toSpace, a) → t.peek sp' a' = s.peek sp' a') ∧
     (∀ aa : BitVec 6,
       ∃ t, exec (match sp with | .x => .moveXAa .toMem aa r | .y => .moveYAa .toMem aa r) s = .next t ∧
         t = (u.poke sp.toSpace (aa.setWidth 16) v).advance 1 ∧ t.peek sp.toSpace (aa.setWidth 16) = v ∧
         ∀ sp' a', (sp', a') ≠ (sp.toSpace, aa.setWidth 16) → t.peek sp' a' = s.peek sp' a'))

/-- L: moves between an operand and the pair X:a, Y:a, the X word the upper half. Loads: A10 and B10 keep the extension,
A and B are sign-extended from 48 bits, AB and BA take a word each. Stores: A10, B10, X and Y as they are, A and B
limited to 48 bits, AB and BA to a word each; every other word of memory stays (45_parallel_moves.md R374, whose A10, AB
and BA rows are partly from general knowledge; that the X word is the upper half is 20_memory.md R102, from general
knowledge too; assumption 13). That the X word is accessed before the Y word is the spec's decision D7, 20_memory.md
R110, and that the old operand is read before the address register is updated its decision D8, 45_parallel_moves.md R361
(assumption 42). -/
def Obligations.LongMoves : Prop :=
  (∀ (s u : State) (i : Instr) (len : Nat) (a : Addr) (l : LOp),
     (∃ ea, i = .moveLEa .toReg ea l ∧ len = 1 + ea.extra ∧ s.resolve ea = .ok (a, u)) ∨
       (∃ aa, i = .moveLAa .toReg aa l ∧ len = 1 ∧ a = aa.setWidth 16 ∧ u = s) →
     let hi := (u.loadData .x a).1
     let lo := ((u.loadData .x a).2.loadData .y a).1
     ∃ t, exec i s = .next t ∧
       t = { (((u.loadData .x a).2.loadData .y a).2).advance len with dalu := t.dalu } ∧
       (l = .a10 → t.dalu = { s.dalu with a := accExt s.dalu.a ++ hi ++ lo }) ∧
       (l = .b10 → t.dalu = { s.dalu with b := accExt s.dalu.b ++ hi ++ lo }) ∧
       (l = .x → t.dalu = { s.dalu with x1 := hi, x0 := lo }) ∧
       (l = .y → t.dalu = { s.dalu with y1 := hi, y0 := lo }) ∧
       (l = .a → t.dalu = { s.dalu with a := (hi ++ lo).signExtend 56 }) ∧
       (l = .b → t.dalu = { s.dalu with b := (hi ++ lo).signExtend 56 }) ∧
       (l = .ab → t.dalu = { s.dalu with a := ext24 hi, b := ext24 lo }) ∧
       (l = .ba → t.dalu = { s.dalu with b := ext24 hi, a := ext24 lo })) ∧
  (∀ (s : State) (m : ScaleMode) (l : LOp), s.scale = .ok m →
     ∃ hi lo u, s.readLong l = .ok ((hi, lo), u) ∧
       (∀ (ea : Ea) (a : Addr) (w : State), u.resolve ea = .ok (a, w) →
         ∃ t, exec (.moveLEa .toMem ea l) s = .next t ∧
           t = ((w.storeData .x a hi).storeData .y a lo).advance (1 + ea.extra) ∧
           (∀ sp' a', (sp' = .p ∨ a' ≠ a) → t.peek sp' a' = s.peek sp' a')) ∧
       (∀ aa : BitVec 6,
         exec (.moveLAa .toMem aa l) s =
           .next (((u.poke .x (aa.setWidth 16) hi).poke .y (aa.setWidth 16) lo).advance 1)) ∧
       (l = .a10 → hi = accMid s.dalu.a ∧ lo = accLow s.dalu.a) ∧
       (l = .b10 → hi = accMid s.dalu.b ∧ lo = accLow s.dalu.b) ∧
       (l = .x → hi = s.dalu.x1 ∧ lo = s.dalu.x0) ∧ (l = .y → hi = s.dalu.y1 ∧ lo = s.dalu.y0) ∧
       (l = .a → hi ++ lo = limit48 m s.dalu.a) ∧ (l = .b → hi ++ lo = limit48 m s.dalu.b) ∧
       (l = .ab → hi = limit24 m s.dalu.a ∧ lo = limit24 m s.dalu.b) ∧
       (l = .ba → hi = limit24 m s.dalu.b ∧ lo = limit24 m s.dalu.a))

/-- X:R and R:Y moves of class I: the accumulator, limited, goes to Y0 or Y1 (X0 or X1) beside the memory move, whose
own effect is that of the X: (Y:) move. X:Y: double moves: both addresses, the Y side's register in the other bank,
both words read, then both written, each side in its own direction (45_parallel_moves.md R375, R376, R379; that the
old values are read first and the X side comes before the Y side are decisions D7 and D8 of the spec, 20_memory.md
R110 and 45_parallel_moves.md R361, assumption 42; the bank of the Y side is R128, from general knowledge, and with
the limiter's ranges assumption 13; S is assumption 10). -/
def Obligations.ClassOneAndDoubleMoves : Prop :=
  (∀ (s w : State) (m : ScaleMode) (d : Acc), s.scale = .ok m →
     (∀ (ee : XReg) (x : Xfer) (f : YSel),
       (s.limited m (s.acc d)).moveEa .x x (.d ee.toDReg) = .ok w →
       exec (.moveXR ee x d f) s =
         .next ((w.writeD (match f with | .y0 => .y0 | .y1 => .y1) (limit24 m (s.acc d))).advance
           (1 + x.extra))) ∧
     (∀ (e : XSel) (ff : YReg) (x : Xfer),
       (s.limited m (s.acc d)).moveEa .y x (.d ff.toDReg) = .ok w →
       exec (.moveRY d e ff x) s =
         .next ((w.writeD (match e with | .x0 => .x0 | .x1 => .x1) (limit24 m (s.acc d))).advance
           (1 + x.extra)))) ∧
  (∀ (s t u u1 u2 : State) (wx wy : Dir) (ee : XReg) (ff : YReg) (mx my : XYMode) (rx : BitVec 3)
     (ry : BitVec 2) (ky : BitVec 3) (ax ay : Addr) (vx vy : Word),
     ky.toNat = (if rx.toNat < 4 then 4 else 0) + ry.toNat →
     s.resolveInd ⟨mx.toAguMode, rx⟩ = .ok (ax, t) → t.resolveInd ⟨my.toAguMode, ky⟩ = .ok (ay, u) →
     (wx = .toReg ∧ u.loadData .x ax = (vx, u1) ∨ wx = .toMem ∧ u.readD ee.toDReg = .ok (vx, u1)) →
     (wy = .toReg ∧ u1.loadData .y ay = (vy, u2) ∨ wy = .toMem ∧ u1.readD ff.toDReg = .ok (vy, u2)) →
     let v := if wx = .toReg then u2.writeD ee.toDReg vx else u2.storeData .x ax vx
     let w := if wy = .toReg then v.writeD ff.toDReg vy else v.storeData .y ay vy
     exec (.moveXY wx ee mx rx wy ff my ry) s = .next (w.advance 1))

/-- X:R and R:Y moves of class II: the old accumulator, limited, goes to memory, and X0 (Y0) as a fraction to the
accumulator (45_parallel_moves.md R377, R378; the limiter's ranges are assumption 13, S is assumption 10, and the old
accumulator is read by decision D8 of the spec, assumption 42). -/
def Obligations.ClassTwoMoves : Prop :=
  ∀ (s w : State) (m : ScaleMode) (d : Acc) (ea : Ea) (a : Addr), s.scale = .ok m →
    (s.limited m (s.acc d)).resolve ea = .ok (a, w) →
    (∃ t, exec (.moveXR2 d ea) s = .next t ∧
      t = ((w.storeData .x a (limit24 m (s.acc d))).setAcc d (t.acc d)).advance (1 + ea.extra) ∧
      (t.acc d).toInt = s.dalu.x0.toInt * 2 ^ 24 ∧
      (isIo a = false → t.peek .x a = limit24 m (s.acc d)) ∧
      ∀ sp' a', (sp', a') ≠ (.x, a) → t.peek sp' a' = s.peek sp' a') ∧
    (∃ t, exec (.moveRY2 d ea) s = .next t ∧
      t = ((w.storeData .y a (limit24 m (s.acc d))).setAcc d (t.acc d)).advance (1 + ea.extra) ∧
      (t.acc d).toInt = s.dalu.y0.toInt * 2 ^ 24 ∧
      (isIo a = false → t.peek .y a = limit24 m (s.acc d)) ∧
      ∀ sp' a', (sp', a') ≠ (.y, a) → t.peek sp' a' = s.peek sp' a')

/-- MOVEC in its four forms; between registers the source's side effects come before the destination is written
(47_nonparallel_encoding_only.md R476, from general knowledge; assumptions 12 and 28). -/
def Obligations.ControlRegisterMoves : Prop :=
  ∀ (s : State) (sp : DSpace) (c : CReg),
    (∀ (ea : Ea) (a : Addr) (u : State), s.resolve ea = .ok (a, u) →
      exec (.movecEa sp (.toReg (.mem ea)) c) s =
        .next (((u.loadData sp a).2.writeReg c.toReg (u.loadData sp a).1).advance (1 + ea.extra))) ∧
    (∀ v : Word, exec (.movecEa sp (.toReg (.imm v)) c) s = .next ((s.writeReg c.toReg v).advance 2)) ∧
    (∀ aa : BitVec 6, exec (.movecAa sp .toReg aa c) s =
      .next ((s.writeReg c.toReg (s.peek sp.toSpace (aa.setWidth 16))).advance 1)) ∧
    (∀ (v : Word) (u : State), s.readReg c.toReg = .ok (v, u) →
      (∀ (ea : Ea) (a : Addr) (w : State), u.resolve ea = .ok (a, w) →
        exec (.movecEa sp (.toMem ea) c) s = .next ((w.storeData sp a v).advance (1 + ea.extra))) ∧
      (∀ aa : BitVec 6, exec (.movecAa sp .toMem aa c) s =
        .next ((u.poke sp.toSpace (aa.setWidth 16) v).advance 1)) ∧
      (∀ r : Reg, exec (.movecReg .toMem r c) s = .next ((u.writeReg r v).advance 1))) ∧
    (∀ (r : Reg) (v : Word) (u : State), s.readReg r = .ok (v, u) →
      exec (.movecReg .toReg r c) s = .next ((u.writeReg c.toReg v).advance 1)) ∧
    (∀ i : BitVec 8, exec (.movecImm i c) s = .next ((s.writeReg c.toReg (i.setWidth 24)).advance 1))

/-- MOVEM: a word of P memory to a register and a register to P memory; a write of one of the two words after the
instruction stops, and no other write does outside a REP and a vector. MOVEP in its three forms: between the I/O
location $FFC0 + pp and data memory or a datum, P memory, or a register (47_nonparallel_encoding_only.md R477, R478,
20_memory.md R112; from general knowledge
and decision D9, assumptions 12, 24, 37 and 42). -/
def Obligations.ProgramMemoryAndPeripheralMoves : Prop :=
  (∀ (s : State) (i j : Instr) (len : Nat) (ea : Ea) (r : Reg),
     (i = .movemEa .toReg ea r ∧ j = .movemEa .toMem ea r ∧ len = 1 + ea.extra) ∨
       (∃ aa : BitVec 6, i = .movemAa .toReg aa r ∧ j = .movemAa .toMem aa r ∧ len = 1 ∧
         ea = .abs (aa.setWidth 16)) →
     (∀ (a : Addr) (u : State), s.resolve ea = .ok (a, u) →
       exec i s = .next ((u.writeReg r (s.peek .p a)).advance len)) ∧
     (∀ (v : Word) (u w : State) (a : Addr), s.readReg r = .ok (v, u) → u.resolve ea = .ok (a, w) →
       s.plain = true →
       (a = s.ctl.pc + BitVec.ofNat 16 len ∨ a = s.ctl.pc + BitVec.ofNat 16 len + 1 →
         exec j s = .fault .prefetchWrite) ∧
       (a ≠ s.ctl.pc + BitVec.ofNat 16 len → a ≠ s.ctl.pc + BitVec.ofNat 16 len + 1 →
         ∃ t, exec j s = .next t ∧ t = (w.poke .p a v).advance len ∧ t.peek .p a = v ∧
           ∀ sp' a', (sp', a') ≠ (.p, a) → t.peek sp' a' = s.peek sp' a'))) ∧
  (∀ (s : State) (ps : DSpace) (pp : BitVec 6),
     let io : Addr := 0xFFC0 + pp.setWidth 16
     let got := s.loadData ps io
     (∀ (es : DSpace) (ea : Ea) (a : Addr) (u : State), s.resolve ea = .ok (a, u) →
       exec (.movepEa ps pp es (.toReg (.mem ea))) s =
         .next (((u.loadData es a).2.storeData ps io (u.loadData es a).1).advance (1 + ea.extra)) ∧
       exec (.movepP ps pp .toReg ea) s =
         .next ((u.storeData ps io (s.peek .p a)).advance (1 + ea.extra))) ∧
     (∀ (es : DSpace) (v : Word), exec (.movepEa ps pp es (.toReg (.imm v))) s =
       .next ((s.storeData ps io v).advance 2)) ∧
     (∀ (es : DSpace) (ea : Ea) (a : Addr) (u : State), got.2.resolve ea = .ok (a, u) →
       exec (.movepEa ps pp es (.toMem ea)) s = .next ((u.storeData es a got.1).advance (1 + ea.extra)) ∧
       (a ∉ u.prefetched (1 + ea.extra) →
         exec (.movepP ps pp .toMem ea) s = .next ((u.poke .p a got.1).advance (1 + ea.extra))) ∧
       (a ∈ u.prefetched (1 + ea.extra) → exec (.movepP ps pp .toMem ea) s = .fault .prefetchWrite)) ∧
     (∀ (r : Reg) (v : Word) (u : State), s.readReg r = .ok (v, u) →
       exec (.movepReg ps pp .toReg r) s = .next ((u.storeData ps io v).advance 1)) ∧
     (∀ r : Reg, exec (.movepReg ps pp .toMem r) s = .next ((got.2.writeReg r got.1).advance 1)))

/-! ### Bit instructions -/

/-- BCHG, BCLR and BSET change the one bit, BTST none, and C takes the bit as it was; SSH is pulled and then pushed;
A and B are read through the limiter, which leaves S alone (47_nonparallel_encoding_only.md R445 to R448, from general
knowledge; assumptions 12, 25, 26, 27 and 43). -/
def Obligations.BitInstructionsTouchOneBit : Prop :=
  (changesOneBit .bchgPp .bchgEa .bchgAa .bchgReg (fun b => !b) ∧
   changesOneBit .bclrPp .bclrEa .bclrAa .bclrReg (fun _ => false) ∧
   changesOneBit .bsetPp .bsetEa .bsetAa .bsetReg (fun _ => true)) ∧
  (∀ (s : State) (n : BitVec 5), n.toNat < 24 →
     (∀ (sp : DSpace) (x : BitVec 6),
       exec (.btstPp sp x n) s = .next (((s.loadData sp (0xFFC0 + x.setWidth 16)).2.setC
         ((s.loadData sp (0xFFC0 + x.setWidth 16)).1.getLsbD n.toNat)).advance 1) ∧
       exec (.btstAa sp x n) s =
         .next ((s.setC ((s.peek sp.toSpace (x.setWidth 16)).getLsbD n.toNat)).advance 1)) ∧
     (∀ (sp : DSpace) (ea : Ea) (a : Addr) (u : State), s.resolve ea = .ok (a, u) →
       exec (.btstEa sp ea n) s = .next (((u.loadData sp a).2.setC
         ((u.loadData sp a).1.getLsbD n.toNat)).advance (1 + ea.extra))) ∧
     (∀ (r : Reg) (v : Word) (u : State), s.readBitReg r = .ok (v, u) →
       exec (.btstReg r n) s = .next ((u.setC (v.getLsbD n.toNat)).advance 1)))

/-! ### Jumps -/

/-- JMP and Jcc: PC goes to the target, or past the instruction where the condition does not hold; the address
register of the ea form is updated either way; in an interrupt vector PC is loaded too, and the vector's second word
is still to come (47_nonparallel_encoding_only.md R466, R467, from general knowledge; assumptions 12 and 19). -/
def Obligations.JumpsLoadThePc : Prop :=
  ∀ (s u : State) (k : Cond) (a : BitVec 12) (ea : Ea) (b : Addr),
    exec (.jmpShort a) s = .next ((s.advance 1).setPc (a.setWidth 16)) ∧
    (condHolds k s.ccr = true → exec (.jccShort k a) s = .next ((s.advance 1).setPc (a.setWidth 16))) ∧
    (condHolds k s.ccr = false → exec (.jccShort k a) s = .next (s.advance 1)) ∧
    (s.resolve ea = .ok (b, u) →
      exec (.jmpEa ea) s = .next ((u.advance (1 + ea.extra)).setPc b) ∧
      (condHolds k s.ccr = true → exec (.jccEa k ea) s = .next ((u.advance (1 + ea.extra)).setPc b)) ∧
      (condHolds k s.ccr = false → exec (.jccEa k ea) s = .next (u.advance (1 + ea.extra))))

/-- JSR and JScc: outside a vector PC past the instruction and SR are pushed, in a vector a long interrupt is
formed; a jump to LA inside a DO loop stops (47_nonparallel_encoding_only.md R468, R469, 70_reset_and_hazards.md
R570; from general knowledge, assumptions 12 and 14). -/
def Obligations.SubroutineJumpsPushTheReturn : Prop :=
  ∀ (s u : State) (i : Instr) (len : Nat) (target : Addr) (taken : Bool),
    (∃ a : BitVec 12, target = a.setWidth 16 ∧ u = s ∧ len = 1 ∧
        (i = .jsrShort a ∧ taken = true ∨ ∃ k, i = .jsccShort k a ∧ taken = condHolds k s.ccr)) ∨
      (∃ ea, s.resolve ea = .ok (target, u) ∧ len = 1 + ea.extra ∧
        (i = .jsrEa ea ∧ taken = true ∨ ∃ k, i = .jsccEa k ea ∧ taken = condHolds k s.ccr)) →
    (taken = false → exec i s = .next (u.advance len)) ∧
    (taken = true → s.lf = true → target = s.ctl.la → exec i s = .fault (.restricted .callToLoopEnd)) ∧
    (taken = true → s.lf = false ∨ target ≠ s.ctl.la → ∃ t, exec i s = .next t ∧ calls len target s.ctl.sr u t)

/-- JCLR and JSET: PC goes to the second word's address when the bit is 0, or 1, else past the instruction. JSCLR and
JSSET: the same with a subroutine jump, which pushes SR as it stood before the instruction (00_scope.md R17) and stops
when it is to LA inside a DO loop; reading A or B leaves S alone (47_nonparallel_encoding_only.md R470, R471, R473,
R474, from general knowledge; assumptions 12, 14, 19, 27 and 43). -/
def Obligations.BitJumpsTestOneBit : Prop :=
  (∀ (s u : State) (i : Instr) (target : Addr) (b : Bool),
     (testedBit .jclrPp .jclrEa .jclrAa .jclrReg target i b s u →
       exec i s = .next (if b = false then (u.advance 2).setPc target else u.advance 2)) ∧
     (testedBit .jsetPp .jsetEa .jsetAa .jsetReg target i b s u →
       exec i s = .next (if b = true then (u.advance 2).setPc target else u.advance 2))) ∧
  (∀ (s u : State) (i : Instr) (target : Addr) (b want : Bool),
     (testedBit .jsclrPp .jsclrEa .jsclrAa .jsclrReg target i b s u ∧ want = false ∨
       testedBit .jssetPp .jssetEa .jssetAa .jssetReg target i b s u ∧ want = true) →
     (b ≠ want → exec i s = .next (u.advance 2)) ∧
     (b = want → u.lf = true → target = u.ctl.la → exec i s = .fault (.restricted .callToLoopEnd)) ∧
     (b = want → u.lf = false ∨ target ≠ u.ctl.la → ∃ t, exec i s = .next t ∧ calls 2 target s.ctl.sr u t))

/-! ### Loops -/

/-- REP in its four forms: the count goes to LC, the old LC to TEMP, and the next word is held to be repeated
(40_rep.md R230 to R236, the last from general knowledge; assumption 12). -/
def Obligations.RepStartsTheRepeat : Prop :=
  ∀ (s u : State) (i : Instr) (count : Addr),
    (∃ c : BitVec 12, i = .repImm c ∧ count = c.setWidth 16 ∧ u = s) ∨
      (∃ r v, i = .repReg r ∧ s.readReg r = .ok (v, u) ∧ count = v.setWidth 16) ∨
      (∃ sp j a w, i = .repEa sp j ∧ s.resolveInd j = .ok (a, w) ∧
        count = (w.loadData sp a).1.setWidth 16 ∧ u = (w.loadData sp a).2) ∨
      (∃ sp, ∃ aa : BitVec 6, i = .repAa sp aa ∧ count = (s.peek sp.toSpace (aa.setWidth 16)).setWidth 16 ∧
        u = s) →
    ∃ t, exec i s = .next t ∧ t.ctl.lc = count ∧ t.rep.temp = u.ctl.lc ∧ t.rep.repeating = true ∧
      (s.vec = none → t.rep.word = s.peek .p (s.ctl.pc + 1) ∧ t.ctl.pc = s.ctl.pc + 1) ∧
      t = { u.advance 1 with rep := t.rep, ctl := { (u.advance 1).ctl with lc := count } }

/-- One pass of a repeated instruction outside loops and vectors: with LC = 1 the repeat ends, LC gets its old value
back and PC goes on; else LC counts down and PC stays. What cannot be repeated stops at its first pass: a word that is
no instruction, a two-word instruction, one that changes program flow, and one that writes LC (40_rep.md R236, R240,
R242, from general knowledge and decisions D12 and D17; assumptions 12 and 14). -/
def Obligations.RepPassesCountDown : Prop :=
  (∀ (s t : State) (i : Instr), s.proc = .normal → s.inbox = [] → s.vec = none → s.lf = false →
     s.rep.repeating = true → decode s.rep.word 0 = .ok i → badRepeat i = false → writesLc i = false →
     hazard i s = none → exec i s = .next t →
     (t.ctl.lc = 1 → ∃ u, step s = .next u ∧ u.rep.repeating = false ∧ u.ctl.lc = t.rep.temp ∧
       u.ctl.pc = s.ctl.pc + 1 ∧ u.dalu = t.dalu ∧ u.agu = t.agu ∧ u.mem = t.mem ∧ u.ctl.sr = t.ctl.sr) ∧
     (t.ctl.lc ≠ 1 → ∃ u, step s = .next u ∧ u.rep.repeating = true ∧ u.ctl.lc = t.ctl.lc - 1 ∧
       u.ctl.pc = s.ctl.pc ∧ u.dalu = t.dalu ∧ u.agu = t.agu ∧ u.mem = t.mem ∧ u.ctl.sr = t.ctl.sr)) ∧
  (∀ s : State, s.proc = .normal → s.inbox = [] → s.rep.repeating = true →
     (∀ e, decode s.rep.word 0 = .error e → step s = .fault .notRepeatable) ∧
     (∀ i, decode s.rep.word 0 = .ok i → badRepeat i = true → step s = .fault .notRepeatable) ∧
     (∀ i, decode s.rep.word 0 = .ok i → badRepeat i = false → writesLc i = true →
       step s = .fault .repeatWritesLc))

/-- DO in its four forms: LA and LC are pushed, then the address of the loop's first instruction and SR as it stood
before the instruction (00_scope.md R17); LC, LA and LF are set. ENDDO takes the two locations from the stack: LF from
the first, LA and LC from the second (47_nonparallel_encoding_only.md R462, R464, from general knowledge; assumptions
12, 29 and 34). -/
def Obligations.DoAndEnddo : Prop :=
  (∀ (s u : State) (i : Instr) (count last : Addr), s.srLegal = true → s.vec = none →
     (∃ c : BitVec 12, i = .doImm c last ∧ count = c.setWidth 16 ∧ u = s) ∨
       (∃ r v, i = .doReg r last ∧ s.readReg r = .ok (v, u) ∧ count = v.setWidth 16) ∨
       (∃ sp j a w, i = .doEa sp j last ∧ s.resolveInd j = .ok (a, w) ∧
         count = (w.loadData sp a).1.setWidth 16 ∧ u = (w.loadData sp a).2) ∨
       (∃ sp, ∃ aa : BitVec 6, i = .doAa sp aa last ∧
         count = (s.peek sp.toSpace (aa.setWidth 16)).setWidth 16 ∧ u = s) →
     let pushed := (u.push u.ctl.la u.ctl.lc).push (s.ctl.pc + 2) s.ctl.sr
     ∃ t, exec i s = .next t ∧ t.ctl.lc = count ∧ t.ctl.la = last ∧ t.lf = true ∧
       t.ctl.pc = s.ctl.pc + 2 ∧ t.ctl.sp = u.ctl.sp + 2 ∧ t.ctl.stack = pushed.ctl.stack ∧
       t.ctl.sr &&& 0x7FFF = u.ctl.sr &&& 0x7FFF ∧
       t = { pushed with ctl := t.ctl } ∧ t.ctl.omr = s.ctl.omr) ∧
  (∀ s : State, s.srLegal = true → 2 ≤ s.ssLoc.toNat → s.onStack = true →
     ∃ t, exec .enddo s = .next t ∧ t.ctl.sp = s.ctl.sp - 2 ∧
       t.ctl.la = (s.pull.2.pull).1.1 ∧ t.ctl.lc = (s.pull.2.pull).1.2 ∧
       t.lf = s.pull.1.2.getLsbD 15 ∧ t.ctl.sr &&& 0x7FFF = s.ctl.sr &&& 0x7FFF ∧
       t = { s.advance 1 with ctl := { (s.advance 1).ctl with
         sp := t.ctl.sp, la := t.ctl.la, lc := t.ctl.lc, sr := t.ctl.sr } })

/-- The end of a DO loop: after the instruction at LA, with LC = 1 the loop's two stack locations are pulled and
PC goes past LA; of SR only LF is restored, and the stack's contents and OMR stay; else LC counts down and PC goes to
the loop's first instruction, which stays on the stack. Nothing else changes but the marks and the cycle count
(47_nonparallel_encoding_only.md R462, from general knowledge; assumptions 12, 16 and 34). -/
def Obligations.LoopEndRepeatsOrLeaves : Prop :=
  ∀ (s t : State) (i : Instr), s.ready = true → s.tr = false → s.lf = true → t.lf = true →
    decode (s.peek .p s.ctl.pc) (s.peek .p (s.ctl.pc + 1)) = .ok i → hazard i s = none →
    exec i s = .next t → isRep i = false → changesFlow i = false → t.ctl.la = s.ctl.la →
    s.ctl.pc + BitVec.ofNat 16 (i.words - 1) = s.ctl.la →
    2 ≤ t.ssLoc.toNat → t.onStack = true →
    (t.ctl.lc = 1 → ∃ u, step s = .next u ∧ u.ctl.pc = s.ctl.la + 1 ∧ u.ctl.sp = t.ctl.sp - 2 ∧
      u.lf = t.pull.1.2.getLsbD 15 ∧ (s.srLegal = true → u.ctl.sr &&& 0x7FFF = t.ctl.sr &&& 0x7FFF) ∧
      u.ctl.la = (t.pull.2.pull).1.1 ∧ u.ctl.lc = (t.pull.2.pull).1.2 ∧
      u.ctl.stack = t.ctl.stack ∧ u.ctl.omr = t.ctl.omr ∧
      u = { t with prev := prevOf i, aguWritten := aguMoved i s, clock := t.clock + s.cycles i, ctl := u.ctl }) ∧
    (t.ctl.lc ≠ 1 → ∃ u, step s = .next u ∧ u.ctl.pc = t.ssTop.1.1 ∧ u.ctl.lc = t.ctl.lc - 1 ∧
      u = { t with prev := prevOf i, aguWritten := aguMoved i s, clock := t.clock + s.cycles i,
                   ctl := { t.ctl with pc := u.ctl.pc, lc := u.ctl.lc } })

/-! ### Control instructions -/

/-- ANDI and ORI on MR, CCR and OMR change the named byte and no other. DEBUG and DEBUGcc enter the debug state where
the part has a debug port, else do nothing. NOP, STOP, WAIT, SWI and ILLEGAL move PC past themselves; STOP and WAIT
change the processing state, SWI and ILLEGAL raise their own interrupt, and nothing else changes. RESET clears IPR,
tells the peripherals, drops the maskable requests and keeps the others, BCR and every register
(41_program_control.md R250, R262, R266, R276; 47_nonparallel_encoding_only.md R443, R444, R449, R450, R456, R479, from
general knowledge, assumption 12; what RESET does to the requests and to BCR is by derivation and by decision
D18, assumptions 13 and 42). -/
def Obligations.ControlInstructions : Prop :=
  (∀ (s : State) (i : BitVec 8), s.srLegal = true →
     let mr := s.ctl.sr.extractLsb' 8 8
     let ccr := s.ctl.sr.extractLsb' 0 8
     let withSr := fun (v : BitVec 16) =>
       ({ s.advance 1 with ctl := { (s.advance 1).ctl with sr := v &&& s.plat.srMask } } : State)
     let withOmr := fun (v : BitVec 8) =>
       ({ s.advance 1 with ctl := { (s.advance 1).ctl with omr := v } } : State)
     exec (.andi i .mr) s = .next (withSr ((mr &&& i) ++ ccr)) ∧
     exec (.andi i .ccr) s = .next (withSr (mr ++ (ccr &&& i))) ∧
     exec (.andi i .omr) s = .next (withOmr (s.ctl.omr &&& i)) ∧
     exec (.ori i .mr) s = .next (withSr ((mr ||| i) ++ ccr)) ∧
     exec (.ori i .ccr) s = .next (withSr (mr ++ (ccr ||| i))) ∧
     exec (.ori i .omr) s = .next (withOmr (s.ctl.omr ||| i))) ∧
  (∀ (s : State) (k : Cond),
     (s.plat.hasDebugPort = false →
       exec .debug s = .next (s.advance 1) ∧ exec (.debugcc k) s = .next (s.advance 1)) ∧
     (s.plat.hasDebugPort = true →
       let t : State := { s.advance 1 with proc := .debug, outbox := .debugRequest :: s.outbox }
       exec .debug s = .next t ∧
       exec (.debugcc k) s = .next (if condHolds k s.ccr then t else s.advance 1))) ∧
  (∀ s : State,
     exec .nop s = .next (s.advance 1) ∧
     exec .stop s = .next { s.advance 1 with proc := .stop } ∧
     exec .wait s = .next { s.advance 1 with proc := .wait } ∧
     (∃ t, exec .swi s = .next t ∧ t = { s.advance 1 with pending := t.pending } ∧
       ∀ q, t.isPending q = (s.isPending q || q == .swi)) ∧
     (∃ t, exec .illegal s = .next t ∧ t = { s.advance 1 with pending := t.pending } ∧
       ∀ q, t.isPending q = (s.isPending q || q == .illegal))) ∧
  (∀ s : State, ∃ t, exec .reset s = .next t ∧ t.ipr = 0 ∧ t.outbox = .peripheralReset :: s.outbox ∧
     (∀ q, t.isPending q = (s.isPending q && !q.maskable)) ∧
     t = { s.advance 1 with ipr := 0, outbox := t.outbox, pending := t.pending })

/-- RTI takes PC and all of SR from the stack, RTS takes PC and leaves SR alone; both move SP down by one on six bits.
Off the stack the values are the free values of location 0; with SP[3:0] = 0 the stack error is raised
(41_program_control.md R254, R258; the empty stack is decision D16 of the spec and assumption 5, the stack's depth
assumption 34, the six bits of SP and the stack error assumptions 13 and 29). -/
def Obligations.ReturnsPullTheStack : Prop :=
  (∀ (s : State) (hi lo : Addr) (k : Nat) (h : k < 15), s.ssLoc.toNat = k + 1 → k < s.plat.stackDepth.val →
     s.ctl.stack[k] = (hi, lo) →
     exec .rti s = .next { s with ctl := { s.ctl with
       pc := hi, sr := lo &&& s.plat.srMask, sp := s.ctl.sp - 1 } } ∧
     exec .rts s = .next { s with ctl := { s.ctl with pc := hi, sp := s.ctl.sp - 1 } }) ∧
  (∀ s : State, s.onStack = false →
     (∃ t, exec .rti s = .next t ∧ t.ctl.pc = Config.ssEmptyHi s.draws ∧
       t.ctl.sr = Config.ssEmptyLo s.draws &&& s.plat.srMask ∧ t.ctl.sp = s.ctl.sp - 1 ∧
       (∀ q, t.isPending q = (s.isPending q || (q == .stackError && s.ssLoc == 0))) ∧
       t.ctl.stack = s.ctl.stack ∧ t.dalu = s.dalu ∧ t.mem = s.mem) ∧
     (∃ t, exec .rts s = .next t ∧ t.ctl.pc = Config.ssEmptyHi s.draws ∧ t.ctl.sr = s.ctl.sr ∧
       t.ctl.sp = s.ctl.sp - 1 ∧
       (∀ q, t.isPending q = (s.isPending q || (q == .stackError && s.ssLoc == 0))) ∧
       t.ctl.stack = s.ctl.stack ∧ t.dalu = s.dalu ∧ t.mem = s.mem))

/-! ### Exceptions -/

/-- The sources of the core have level 3; an IPR field of 0 disables its sources, and 1, 2 and 3 give levels 0, 1 and
2; a source is unmasked when it is pending, enabled and its level is not below I1:I0; the sources of the core come first,
then IRQA, IRQB and the peripherals in the platform's order. Arbitration gives an unmasked source of the highest level
there is, and among those of that level the first in order; it gives none only when no source is unmasked
(10_state.md R53, 60_exceptions.md R503, from general knowledge; assumptions 13 and 33). -/
def Obligations.ArbitrationServesTheHighestLevel : Prop :=
  ∀ s : State,
    (∀ q ∈ [Source.illegal, .nmi, .stackError, .trace, .swi], s.levelOf q = some 3) ∧
    (∀ q lo,
      q = .irqa ∧ lo = 0 ∨ q = .irqb ∧ lo = 3 ∨ q ∈ [.hostRx, .hostTx, .hostCmd] ∧ lo = 10 ∨
        q ∈ [.ssiRx, .ssiRxExc, .ssiTx, .ssiTxExc] ∧ lo = 12 ∨
        q ∈ [.sciRx, .sciRxExc, .sciTx, .sciIdle, .sciTimer] ∧ lo = 14 →
      (s.ipr.toNat / 2 ^ lo % 4 = 0 → s.levelOf q = none) ∧
      (∀ k, s.ipr.toNat / 2 ^ lo % 4 = k + 1 → ∃ l, s.levelOf q = some l ∧ l.toNat = k)) ∧
    (∀ q, s.unmasked q = true ↔
      s.isPending q = true ∧ ∃ l, s.levelOf q = some l ∧ s.ctl.sr.toNat / 256 % 4 ≤ l.toNat) ∧
    (∃ others, s.order =
      [.illegal, .nmi, .stackError, .trace, .swi, .irqa, .irqb] ++ s.plat.periphOrder ++ others) ∧
    (∀ q, q ∈ s.order) ∧
    (s.arbitrate = none ↔ ∀ q, s.unmasked q = false) ∧
    (∀ q l, s.arbitrate = some (q, l) →
      s.unmasked q = true ∧ s.levelOf q = some l ∧
      (∀ q' l', s.unmasked q' = true → s.levelOf q' = some l' → l'.toNat ≤ l.toNat) ∧
      (∀ q', s.unmasked q' = true → s.levelOf q' = some l → s.order.idxOf q ≤ s.order.idxOf q'))

/-- Servicing an interrupt: its pending flag is cleared, its vector is fetched next, and PC, SR, the stack and every
register stay; the same from the wait state. An instruction in a vector that forms no long interrupt: a one-word
instruction in the first word leads to the second word; a two-word instruction in the first word, and a one-word
instruction in the second, end the fast interrupt, and the interrupted program goes on at PC, which entry and every
instruction but a jump leave alone; a two-word instruction in the second word is not run (60_exceptions.md R504, R508,
R509, from general knowledge; assumptions 13, 17, 18, 19, 21 and 32). -/
def Obligations.ServiceAndFastInterrupts : Prop :=
  (∀ (s : State) (q : Source) (l : BitVec 2), s.inbox = [] → s.vec = none → s.rep.repeating = false →
     s.proc = .normal ∨ s.proc = .wait → s.arbitrate = some (q, l) →
     ∃ t v, step s = .next t ∧ t.vec = some v ∧ v.addr = s.plat.vectors[q.idx] ∧ v.slot = 0 ∧ v.level = l ∧
       t.proc = .exception ∧ t.fetched = (s.peek .p v.addr, s.peek .p (v.addr + 1)) ∧
       (∀ q', t.isPending q' = (s.isPending q' && q' != q)) ∧
       t = { s with vec := t.vec, proc := t.proc, pending := t.pending }) ∧
  (∀ (s : State) (v : VecState) (i : Instr), s.proc = .exception ∨ s.proc = .normal → s.inbox = [] →
     s.rep.repeating = false → s.vec = some v → s.tr = false →
     v.slot = 0 ∧ decode (s.peek .p v.addr) (s.peek .p (v.addr + 1)) = .ok i ∨
       v.slot = 1 ∧ decode (s.peek .p (v.addr + 1)) (s.peek .p s.ctl.pc) = .ok i →
     (v.slot = 1 → i.words = 2 → step s = .fault .vectorSecondWord) ∧
     (∀ t, v.slot = 0 ∨ i.words = 1 → changesFlow i = false ∨ t.vec ≠ none → hazard i s = none →
       exec i s = .next t → ∃ u, step s = .next u ∧
         (v.slot = 0 → i.words = 1 → u.vec = some { v with slot := 1 } ∧ u.proc = t.proc) ∧
         (v.slot = 1 ∨ i.words = 2 →
           u.vec = none ∧ u.proc = if t.proc = .exception then .normal else t.proc) ∧
         (changesFlow i = false → u.ctl.pc = s.ctl.pc) ∧
         u = { t with prev := prevOf i, aguWritten := aguMoved i s, clock := t.clock + s.cycles i,
                      vec := u.vec, proc := u.proc }))

/-- A subroutine jump in a vector forms a long interrupt: PC and SR are pushed, LF, DM, T, S1 and S0 are cleared,
I1:I0 becomes the smaller of level + 1 and 3, the CCR is kept, PC goes to the target; and RTI undoes it: PC, all of SR
and SP are what they were (60_exceptions.md R510, R512, from general knowledge but for the mask and the places on the
stack; assumptions 13 and 34). -/
def Obligations.LongInterruptsSaveMaskAndReturn : Prop :=
  ∀ (s : State) (v : VecState) (target : Addr), s.srLegal = true → s.ssLoc.toNat < s.plat.stackDepth.val →
    let t := s.longInterrupt v target s.ctl.sr
    (t.ctl.sp = s.ctl.sp + 1 ∧ t.ssTop.1 = (s.ctl.pc, s.ctl.sr) ∧ t.ctl.pc = target ∧ t.vec = none ∧
      t.proc = .normal ∧ t.lf = false ∧ t.tr = false ∧ t.srBit 14 = false ∧ t.srBit 11 = false ∧
      t.srBit 10 = false ∧ t.imask.toNat = min (v.level.toNat + 1) 3 ∧ t.ccr = s.ccr ∧
      t.dalu = s.dalu ∧ t.agu = s.agu ∧ t.mem = s.mem ∧ t.ctl.la = s.ctl.la ∧ t.ctl.lc = s.ctl.lc ∧
      t.ctl.omr = s.ctl.omr ∧ t.pending = s.pending) ∧
    (∃ u, exec .rti t = .next u ∧ u.ctl.pc = s.ctl.pc ∧ u.ctl.sr = s.ctl.sr ∧ u.ctl.sp = s.ctl.sp ∧
      u = { s with vec := none, proc := .normal, ctl := { s.ctl with stack := u.ctl.stack } })

/-- A push or a write of SSH at location 15 and a pull or a read of SSH at location 0 raise the stack error, and they
do so nowhere else; reads and writes of SSL and writes of SP never raise it. SP moves by one on six bits at a push, a
pull and an access to SSH; at 15 and from the stack's depth on nothing is stored; below the depth what is pushed is
pulled, a write of SSH keeps the low half, and a write of SSL the high half. Every stack location but the one written
stays as it was, a write of SSL off the stack is lost, and nothing else changes (10_state.md R50, R51, 60_exceptions.md
R505, 47_nonparallel_encoding_only.md R441, from general knowledge, the lost write by decision D16; assumptions 5, 12, 13
and 34). That SP keeps to the six bits, and so clears
SE, where SE is 1 already is the model's choice (assumption 29). -/
def Obligations.StackErrorsAreRaised : Prop :=
  ∀ (s : State) (hi lo : Addr) (w : Word),
    (∀ t, t = s.push hi lo ∨ t = s.writeSsh hi →
      t.ctl.sp = s.ctl.sp + 1 ∧
      (∀ q, t.isPending q = (s.isPending q || (q == .stackError && s.ssLoc == 15))) ∧
      (s.ssLoc = 15 ∨ s.plat.stackDepth.val ≤ s.ssLoc.toNat → t.ctl.stack = s.ctl.stack) ∧
      (∀ k : Fin 15, k.val + 1 ≠ (s.ssLoc + 1).toNat → t.ctl.stack[k] = s.ctl.stack[k]) ∧
      t = { s with ctl := { s.ctl with sp := t.ctl.sp, stack := t.ctl.stack }, pending := t.pending }) ∧
    (∀ t, t = s.pull.2 ∨ t = s.readSsh.2 →
      t.ctl.sp = s.ctl.sp - 1 ∧ t.ctl.stack = s.ctl.stack ∧
      (∀ q, t.isPending q = (s.isPending q || (q == .stackError && s.ssLoc == 0)))) ∧
    (∀ t, t = s.readSsl.2 ∨ t = s.writeSsl lo → t.ctl.sp = s.ctl.sp ∧ t.pending = s.pending) ∧
    s.readSsl.2.ctl.stack = s.ctl.stack ∧
    (s.onStack = true → (s.writeSsl lo).ssTop.1 = (s.ssTop.1.1, lo) ∧
      (∀ k : Fin 15, k.val + 1 ≠ s.ssLoc.toNat → (s.writeSsl lo).ctl.stack[k] = s.ctl.stack[k]) ∧
      s.writeSsl lo = { s with ctl := { s.ctl with stack := (s.writeSsl lo).ctl.stack } }) ∧
    (s.onStack = false → s.writeSsl lo = s) ∧
    (s.writeReg (.c .sp) w).pending = s.pending ∧
    (s.ssLoc.toNat < s.plat.stackDepth.val →
      (s.push hi lo).pull.1 = (hi, lo) ∧ (s.writeSsh hi).readSsh.1 = hi ∧
        (s.writeSsh hi).ssTop.1.2 = s.incSp.ssTop.1.2)

/-- What the events of the host do in each processing state. Stop: nothing runs and requests are dropped; IRQA alone
brings the normal state back at the same PC, where the maskable requests are those the platform answers with and the
others stay. Wait: a request becomes pending, and service begins if one is unmasked. Normal and exception: a request
becomes pending before the instruction or service of the step. Debug: a request becomes pending, and debug_resume gives
the normal state. In the step that finds the RESET pin released a request is dropped, which is the model's choice, and
so are requests beside the RESET pin. Another bus master changes the one word, where memory is external and outside the
I/O range, in every state. The events of one slot act in order (00_scope.md R8; 41_program_control.md R266, R268, R276;
60_exceptions.md R503, R504; assumptions 4, 8, 13, 22, 32, 36). -/
def Obligations.HostEventsActInEachState : Prop :=
  ∀ (s : State) (rest : List (List HostEvent)),
    let taken : State := { s with inbox := rest }
    (s.proc = .stop →
      (s.inbox = [] → step s = .next s) ∧ (s.inbox = [] :: rest → step s = .next taken) ∧
      (∀ e, s.inbox = [e] :: rest → (∃ q, requests e q ∧ e ≠ .irqaLow) ∨ e = .debugResume →
        step s = .next taken) ∧
      (s.inbox = [.irqaLow] :: rest →
        let u := taken.leaveStop
        step s = runCore u ∧ u.proc = .normal ∧ u.ctl = s.ctl ∧ u.mem = s.mem ∧ u.dalu = s.dalu ∧ u.agu = s.agu ∧
        (∀ q, q.maskable = false → u.isPending q = s.isPending q) ∧
        (∀ q, q.maskable = true →
          u.isPending q = (Config.pendingAfterStop s.draws).getLsbD (q.idx.val - 5)))) ∧
    (s.proc = .wait → s.inbox = [] → s.arbitrate = none → step s = .next s) ∧
    (∀ q q', (s.pend q).isPending q' = (s.isPending q' || q' == q)) ∧
    (∀ e q, requests e q → s.inbox = [e] :: rest →
      let t := taken.pend q
      (s.proc = .wait → t.arbitrate = none → step s = .next t) ∧
      (s.proc = .wait → ∀ q' l, t.arbitrate = some (q', l) → step s = .next (t.service q' l)) ∧
      (s.proc = .normal ∨ s.proc = .exception → step s = runCore t) ∧
      (s.proc = .debug → step s = .next t) ∧
      (s.proc = .reset → step s = .next taken.release)) ∧
    (s.proc = .debug → s.inbox = [.debugResume] :: rest → step s = runCore { taken with proc := .normal }) ∧
    (∀ sp a v, s.inbox = [.busWrite sp a v] :: rest → ∃ t,
      (s.proc = .normal ∨ s.proc = .exception → step s = runCore t) ∧
      (s.proc = .stop ∨ s.proc = .debug → step s = .next t) ∧
      (s.proc = .wait → (t.arbitrate = none → step s = .next t) ∧
        ∀ q l, t.arbitrate = some (q, l) → step s = .next (t.service q l)) ∧
      (s.proc = .reset → step s = .next t.release) ∧
      t = { taken with mem := t.mem } ∧
      (∀ sp' a', (sp', a') ≠ (sp, a) → t.peek sp' a' = s.peek sp' a') ∧
      (((∃ r ∈ s.plat.external, r.space = sp ∧ r.first.toNat ≤ a.toNat ∧ a.toNat ≤ r.last.toNat) ∧
          (sp = .p ∨ a.toNat < 0xFFC0) → t.peek sp a = v)) ∧
      (¬((∃ r ∈ s.plat.external, r.space = sp ∧ r.first.toNat ≤ a.toNat ∧ a.toNat ≤ r.last.toNat) ∧
          (sp = .p ∨ a.toNat < 0xFFC0)) → t = taken)) ∧
    (∀ e es, e ≠ .resetPin → s.inbox = (e :: es) :: rest →
      step s = step { taken.takeEvent e with inbox := es :: rest }) ∧
    (∀ es, (∀ e ∈ es, (∃ q, requests e q) ∨ e = .debugResume) → s.inbox = (.resetPin :: es) :: rest →
      step s = .next taken.hardReset)

/-! ### Restricted sequences -/

/-- The restrictions of A.9. What each instruction leaves for the checks of the next one: the register that BCHG, BCLR,
BSET, MOVEC, MOVEM or MOVEP wrote, a read of SSH by the last three, and ANDI or ORI of MR and of CCR. DO, ENDDO, RTI,
RTS and reads of SSH and SSL just after an instruction of their lists are not run. Near the end of a DO loop: at LA-2,
LA-1 and LA no DO, no jump and no return, no write of LA, LC, SR, SP, SSH or SSL and no read of SSH; at LA no two-word
instruction, jump, REP, RESET, return, STOP or WAIT; for a word of an interrupt vector its own address counts. In an
interrupt vector none of the list of A.9.7. And the checks add nothing: each stops an instruction only where its list,
or a register marked by the instruction before, says so (00_scope.md R9, 70_reset_and_hazards.md R566 to R569, R571 to
R574, R576, R578, R579, R581; decision D12, assumptions 14 and 15). -/
def Obligations.RestrictedSequencesStop : Prop :=
  (∀ i : Instr,
     (∀ c, (prevOf i).wrote = some c ↔ movesTo i (.c c) ∨ bitWrites i (.c c)) ∧
     ((prevOf i).fromSsh = true ↔ movesFrom i (.c .ssh)) ∧
     ((prevOf i).immMr = true ↔ ∃ n, i = .andi n .mr ∨ i = .ori n .mr) ∧
     ((prevOf i).immCcr = true ↔ ∃ n, i = .andi n .ccr ∨ i = .ori n .ccr) ∧
     ∀ s t, (retire i s t).prev = prevOf i) ∧
  (∀ (s : State), s.lf = false → s.vec = none →
     (∀ i c, isDo i = true → s.prev.wrote = some c → c ∈ [.la, .lc, .ssh, .ssl, .sp] →
       hazard i s = some .beforeDo) ∧
     (∀ i, isDo i = true → s.prev.fromSsh = true → hazard i s = some .beforeDo) ∧
     (∀ c, s.prev.wrote = some c → c ∈ [.la, .lc, .sr, .ssh, .ssl, .sp] →
       hazard .enddo s = some .beforeEnddo) ∧
     (s.prev.fromSsh = true ∨ s.prev.immMr = true → hazard .enddo s = some .beforeEnddo) ∧
     (∀ c, s.prev.wrote = some c → c ∈ [.sr, .ssh, .ssl, .sp] → hazard .rti s = some .beforeReturn) ∧
     (s.prev.fromSsh = true ∨ s.prev.immMr = true ∨ s.prev.immCcr = true →
       hazard .rti s = some .beforeReturn) ∧
     (∀ c, s.prev.wrote = some c → c ∈ [.ssh, .ssl, .sp] → hazard .rts s = some .beforeReturn) ∧
     (s.prev.fromSsh = true → hazard .rts s = some .beforeReturn) ∧
     (∀ i c, movesFrom i (.c c) ∨ bitJumpOn i (.c c) → c ∈ [.ssh, .ssl] → s.prev.wrote = some .sp →
       hazard i s = some .stackAccess)) ∧
  (∀ (s : State) (i : Instr) (place : Addr), s.lf = true →
     (s.vec = none ∧ place = s.ctl.pc ∨
       ∃ v, s.vec = some v ∧ (v.slot = 0 ∧ place = v.addr ∨ v.slot ≠ 0 ∧ place = v.addr + 1)) →
     (∀ d : Addr, d.toNat ≤ 2 → place + d = s.ctl.la →
       listedNearLoopEnd i → hazard i s = some .nearLoopEnd) ∧
     (place = s.ctl.la → listedAtLoopEnd i → ∃ r, hazard i s = some r)) ∧
  (∀ (s : State) (v : VecState) (i : Instr), s.vec = some v → listedInVector i →
     (∃ r, hazard i s = some r) ∧ (s.lf = false → hazard i s = some .fastInterrupt)) ∧
  (∀ (s : State) (i : Instr) (r : Restriction), hazard i s = some r →
     match r with
     | .nearLoopEnd => s.lf = true ∧ listedNearLoopEnd i ∧
       ∃ d : Addr, d.toNat ≤ 2 ∧ s.fetchAddrs.1 + d = s.ctl.la
     | .atLoopEnd => s.lf = true ∧ s.fetchAddrs.1 = s.ctl.la ∧ listedAtLoopEnd i
     | .callToLoopEnd => False
     | .fastInterrupt => s.vec ≠ none ∧ listedInVector i
     | .beforeDo => isDo i = true ∧
       ((∃ c, s.prev.wrote = some c ∧ c ∈ [.la, .lc, .ssh, .ssl, .sp]) ∨ s.prev.fromSsh = true)
     | .beforeEnddo => i = .enddo ∧
       ((∃ c, s.prev.wrote = some c ∧ c ∈ [.la, .lc, .sr, .ssh, .ssl, .sp]) ∨ s.prev.fromSsh = true ∨
         s.prev.immMr = true)
     | .beforeReturn =>
       (i = .rti ∧ ((∃ c, s.prev.wrote = some c ∧ c ∈ [.sr, .ssh, .ssl, .sp]) ∨ s.prev.fromSsh = true ∨
         s.prev.immMr = true ∨ s.prev.immCcr = true)) ∨
       (i = .rts ∧ ((∃ c, s.prev.wrote = some c ∧ c ∈ [.ssh, .ssl, .sp]) ∨ s.prev.fromSsh = true))
     | .stackAccess => s.prev.wrote = some .sp ∧
       ∃ c, (movesFrom i (.c c) ∨ bitJumpOn i (.c c)) ∧ c ∈ [.ssh, .ssl]
     | .aguDelay => ∃ j ∈ addrUses i, s.aguWritten = some (.r j.reg) ∨
       (s.aguWritten = some (.n j.reg) ∧ j.mode ∈ [.postAddN, .postSubN, .indexed]) ∨
       (s.aguWritten = some (.m j.reg) ∧ j.mode ≠ .noUpdate))

/-- An AGU register that a move wrote is marked for the next instruction: a parallel move's destination, MOVEC, MOVEM,
LUA, and Tcc's second destination when its condition holds; not MOVEP, NORM or an address update. The next instruction
does not use a marked register for address generation: Rn in any indirect mode, Nn in the modes that read it, Mn in all
but No Update; other uses are free (70_reset_and_hazards.md R576, R578; decision D12, assumptions 14 and 39). -/
def Obligations.AguDelayStops : Prop :=
  (∀ (i : Instr) (s t : State),
     (retire i s t).aguWritten = aguMoved i s ∧ ∀ q, aguMoved i s = some q ↔ marksAgu i s q) ∧
  (∀ (s : State) (i : Instr) (j : Ind), s.lf = false → s.vec = none → s.prev = Prev.none → j ∈ addrUses i →
    (s.aguWritten = some (.r j.reg) → hazard i s = some .aguDelay) ∧
    (s.aguWritten = some (.n j.reg) →
      j.mode = .postAddN ∨ j.mode = .postSubN ∨ j.mode = .indexed → hazard i s = some .aguDelay) ∧
    (s.aguWritten = some (.m j.reg) → j.mode ≠ .noUpdate → hazard i s = some .aguDelay) ∧
    (addrUses i = [j] → s.aguWritten = some (.n j.reg) →
      j.mode = .noUpdate ∨ j.mode = .postInc ∨ j.mode = .postDec ∨ j.mode = .preDec →
      hazard i s = none) ∧
    (addrUses i = [j] → s.aguWritten = some (.m j.reg) → j.mode = .noUpdate → hazard i s = none))
end

