-- ==== Sys2Proof/Laws/State.lean ====
section
/-! SUPPORT. One lemma for each field of State and each update of it. -/

namespace Sys2Proof.Machine

variable (s : State)

@[simp] theorem State.setSr_dalu (v : BitVec 16) : (s.setSr v).dalu = s.dalu := rfl
@[simp] theorem State.setSr_agu (v : BitVec 16) : (s.setSr v).agu = s.agu := rfl
@[simp] theorem State.setSr_ctl (v : BitVec 16) : (s.setSr v).ctl = { s.ctl with sr := v &&& s.plat.srMask } := rfl
@[simp] theorem State.setSr_ipr (v : BitVec 16) : (s.setSr v).ipr = s.ipr := rfl
@[simp] theorem State.setSr_bcr (v : BitVec 16) : (s.setSr v).bcr = s.bcr := rfl
@[simp] theorem State.setSr_mem (v : BitVec 16) : (s.setSr v).mem = s.mem := rfl
@[simp] theorem State.setSr_proc (v : BitVec 16) : (s.setSr v).proc = s.proc := rfl
@[simp] theorem State.setSr_rep (v : BitVec 16) : (s.setSr v).rep = s.rep := rfl
@[simp] theorem State.setSr_pending (v : BitVec 16) : (s.setSr v).pending = s.pending := rfl
@[simp] theorem State.setSr_vec (v : BitVec 16) : (s.setSr v).vec = s.vec := rfl
@[simp] theorem State.setSr_prev (v : BitVec 16) : (s.setSr v).prev = s.prev := rfl
@[simp] theorem State.setSr_aguWritten (v : BitVec 16) : (s.setSr v).aguWritten = s.aguWritten := rfl
@[simp] theorem State.setSr_plat (v : BitVec 16) : (s.setSr v).plat = s.plat := rfl
@[simp] theorem State.setSr_inbox (v : BitVec 16) : (s.setSr v).inbox = s.inbox := rfl
@[simp] theorem State.setSr_outbox (v : BitVec 16) : (s.setSr v).outbox = s.outbox := rfl
@[simp] theorem State.setSr_draws (v : BitVec 16) : (s.setSr v).draws = s.draws := rfl
@[simp] theorem State.setSr_clock (v : BitVec 16) : (s.setSr v).clock = s.clock := rfl

@[simp] theorem State.setPc_dalu (v : Addr) : (s.setPc v).dalu = s.dalu := rfl
@[simp] theorem State.setPc_agu (v : Addr) : (s.setPc v).agu = s.agu := rfl
@[simp] theorem State.setPc_ctl (v : Addr) : (s.setPc v).ctl = { s.ctl with pc := v } := rfl
@[simp] theorem State.setPc_ipr (v : Addr) : (s.setPc v).ipr = s.ipr := rfl
@[simp] theorem State.setPc_bcr (v : Addr) : (s.setPc v).bcr = s.bcr := rfl
@[simp] theorem State.setPc_mem (v : Addr) : (s.setPc v).mem = s.mem := rfl
@[simp] theorem State.setPc_proc (v : Addr) : (s.setPc v).proc = s.proc := rfl
@[simp] theorem State.setPc_rep (v : Addr) : (s.setPc v).rep = s.rep := rfl
@[simp] theorem State.setPc_pending (v : Addr) : (s.setPc v).pending = s.pending := rfl
@[simp] theorem State.setPc_vec (v : Addr) : (s.setPc v).vec = s.vec := rfl
@[simp] theorem State.setPc_prev (v : Addr) : (s.setPc v).prev = s.prev := rfl
@[simp] theorem State.setPc_aguWritten (v : Addr) : (s.setPc v).aguWritten = s.aguWritten := rfl
@[simp] theorem State.setPc_plat (v : Addr) : (s.setPc v).plat = s.plat := rfl
@[simp] theorem State.setPc_inbox (v : Addr) : (s.setPc v).inbox = s.inbox := rfl
@[simp] theorem State.setPc_outbox (v : Addr) : (s.setPc v).outbox = s.outbox := rfl
@[simp] theorem State.setPc_draws (v : Addr) : (s.setPc v).draws = s.draws := rfl
@[simp] theorem State.setPc_clock (v : Addr) : (s.setPc v).clock = s.clock := rfl

@[simp] theorem State.setAcc_dalu (d : Acc) (v : AccVal) : (s.setAcc d v).dalu = s.dalu.setAcc d v := rfl
@[simp] theorem State.setAcc_agu (d : Acc) (v : AccVal) : (s.setAcc d v).agu = s.agu := rfl
@[simp] theorem State.setAcc_ctl (d : Acc) (v : AccVal) : (s.setAcc d v).ctl = s.ctl := rfl
@[simp] theorem State.setAcc_ipr (d : Acc) (v : AccVal) : (s.setAcc d v).ipr = s.ipr := rfl
@[simp] theorem State.setAcc_bcr (d : Acc) (v : AccVal) : (s.setAcc d v).bcr = s.bcr := rfl
@[simp] theorem State.setAcc_mem (d : Acc) (v : AccVal) : (s.setAcc d v).mem = s.mem := rfl
@[simp] theorem State.setAcc_proc (d : Acc) (v : AccVal) : (s.setAcc d v).proc = s.proc := rfl
@[simp] theorem State.setAcc_rep (d : Acc) (v : AccVal) : (s.setAcc d v).rep = s.rep := rfl
@[simp] theorem State.setAcc_pending (d : Acc) (v : AccVal) : (s.setAcc d v).pending = s.pending := rfl
@[simp] theorem State.setAcc_vec (d : Acc) (v : AccVal) : (s.setAcc d v).vec = s.vec := rfl
@[simp] theorem State.setAcc_prev (d : Acc) (v : AccVal) : (s.setAcc d v).prev = s.prev := rfl
@[simp] theorem State.setAcc_aguWritten (d : Acc) (v : AccVal) : (s.setAcc d v).aguWritten = s.aguWritten := rfl
@[simp] theorem State.setAcc_plat (d : Acc) (v : AccVal) : (s.setAcc d v).plat = s.plat := rfl
@[simp] theorem State.setAcc_inbox (d : Acc) (v : AccVal) : (s.setAcc d v).inbox = s.inbox := rfl
@[simp] theorem State.setAcc_outbox (d : Acc) (v : AccVal) : (s.setAcc d v).outbox = s.outbox := rfl
@[simp] theorem State.setAcc_draws (d : Acc) (v : AccVal) : (s.setAcc d v).draws = s.draws := rfl
@[simp] theorem State.setAcc_clock (d : Acc) (v : AccVal) : (s.setAcc d v).clock = s.clock := rfl

@[simp] theorem State.writeD_dalu (x : DReg) (w : Word) : (s.writeD x w).dalu = s.dalu.putD x w := rfl
@[simp] theorem State.writeD_agu (x : DReg) (w : Word) : (s.writeD x w).agu = s.agu := rfl
@[simp] theorem State.writeD_ctl (x : DReg) (w : Word) : (s.writeD x w).ctl = s.ctl := rfl
@[simp] theorem State.writeD_ipr (x : DReg) (w : Word) : (s.writeD x w).ipr = s.ipr := rfl
@[simp] theorem State.writeD_bcr (x : DReg) (w : Word) : (s.writeD x w).bcr = s.bcr := rfl
@[simp] theorem State.writeD_mem (x : DReg) (w : Word) : (s.writeD x w).mem = s.mem := rfl
@[simp] theorem State.writeD_proc (x : DReg) (w : Word) : (s.writeD x w).proc = s.proc := rfl
@[simp] theorem State.writeD_rep (x : DReg) (w : Word) : (s.writeD x w).rep = s.rep := rfl
@[simp] theorem State.writeD_pending (x : DReg) (w : Word) : (s.writeD x w).pending = s.pending := rfl
@[simp] theorem State.writeD_vec (x : DReg) (w : Word) : (s.writeD x w).vec = s.vec := rfl
@[simp] theorem State.writeD_prev (x : DReg) (w : Word) : (s.writeD x w).prev = s.prev := rfl
@[simp] theorem State.writeD_aguWritten (x : DReg) (w : Word) : (s.writeD x w).aguWritten = s.aguWritten := rfl
@[simp] theorem State.writeD_plat (x : DReg) (w : Word) : (s.writeD x w).plat = s.plat := rfl
@[simp] theorem State.writeD_inbox (x : DReg) (w : Word) : (s.writeD x w).inbox = s.inbox := rfl
@[simp] theorem State.writeD_outbox (x : DReg) (w : Word) : (s.writeD x w).outbox = s.outbox := rfl
@[simp] theorem State.writeD_draws (x : DReg) (w : Word) : (s.writeD x w).draws = s.draws := rfl
@[simp] theorem State.writeD_clock (x : DReg) (w : Word) : (s.writeD x w).clock = s.clock := rfl

@[simp] theorem State.setR_dalu (k : BitVec 3) (v : Addr) : (s.setR k v).dalu = s.dalu := rfl
@[simp] theorem State.setR_agu (k : BitVec 3) (v : Addr) : (s.setR k v).agu = { s.agu with r := s.agu.r.set k.toNat v k.isLt } := rfl
@[simp] theorem State.setR_ctl (k : BitVec 3) (v : Addr) : (s.setR k v).ctl = s.ctl := rfl
@[simp] theorem State.setR_ipr (k : BitVec 3) (v : Addr) : (s.setR k v).ipr = s.ipr := rfl
@[simp] theorem State.setR_bcr (k : BitVec 3) (v : Addr) : (s.setR k v).bcr = s.bcr := rfl
@[simp] theorem State.setR_mem (k : BitVec 3) (v : Addr) : (s.setR k v).mem = s.mem := rfl
@[simp] theorem State.setR_proc (k : BitVec 3) (v : Addr) : (s.setR k v).proc = s.proc := rfl
@[simp] theorem State.setR_rep (k : BitVec 3) (v : Addr) : (s.setR k v).rep = s.rep := rfl
@[simp] theorem State.setR_pending (k : BitVec 3) (v : Addr) : (s.setR k v).pending = s.pending := rfl
@[simp] theorem State.setR_vec (k : BitVec 3) (v : Addr) : (s.setR k v).vec = s.vec := rfl
@[simp] theorem State.setR_prev (k : BitVec 3) (v : Addr) : (s.setR k v).prev = s.prev := rfl
@[simp] theorem State.setR_aguWritten (k : BitVec 3) (v : Addr) : (s.setR k v).aguWritten = s.aguWritten := rfl
@[simp] theorem State.setR_plat (k : BitVec 3) (v : Addr) : (s.setR k v).plat = s.plat := rfl
@[simp] theorem State.setR_inbox (k : BitVec 3) (v : Addr) : (s.setR k v).inbox = s.inbox := rfl
@[simp] theorem State.setR_outbox (k : BitVec 3) (v : Addr) : (s.setR k v).outbox = s.outbox := rfl
@[simp] theorem State.setR_draws (k : BitVec 3) (v : Addr) : (s.setR k v).draws = s.draws := rfl
@[simp] theorem State.setR_clock (k : BitVec 3) (v : Addr) : (s.setR k v).clock = s.clock := rfl

@[simp] theorem State.setN_dalu (k : BitVec 3) (v : Addr) : (s.setN k v).dalu = s.dalu := rfl
@[simp] theorem State.setN_agu (k : BitVec 3) (v : Addr) : (s.setN k v).agu = { s.agu with n := s.agu.n.set k.toNat v k.isLt } := rfl
@[simp] theorem State.setN_ctl (k : BitVec 3) (v : Addr) : (s.setN k v).ctl = s.ctl := rfl
@[simp] theorem State.setN_ipr (k : BitVec 3) (v : Addr) : (s.setN k v).ipr = s.ipr := rfl
@[simp] theorem State.setN_bcr (k : BitVec 3) (v : Addr) : (s.setN k v).bcr = s.bcr := rfl
@[simp] theorem State.setN_mem (k : BitVec 3) (v : Addr) : (s.setN k v).mem = s.mem := rfl
@[simp] theorem State.setN_proc (k : BitVec 3) (v : Addr) : (s.setN k v).proc = s.proc := rfl
@[simp] theorem State.setN_rep (k : BitVec 3) (v : Addr) : (s.setN k v).rep = s.rep := rfl
@[simp] theorem State.setN_pending (k : BitVec 3) (v : Addr) : (s.setN k v).pending = s.pending := rfl
@[simp] theorem State.setN_vec (k : BitVec 3) (v : Addr) : (s.setN k v).vec = s.vec := rfl
@[simp] theorem State.setN_prev (k : BitVec 3) (v : Addr) : (s.setN k v).prev = s.prev := rfl
@[simp] theorem State.setN_aguWritten (k : BitVec 3) (v : Addr) : (s.setN k v).aguWritten = s.aguWritten := rfl
@[simp] theorem State.setN_plat (k : BitVec 3) (v : Addr) : (s.setN k v).plat = s.plat := rfl
@[simp] theorem State.setN_inbox (k : BitVec 3) (v : Addr) : (s.setN k v).inbox = s.inbox := rfl
@[simp] theorem State.setN_outbox (k : BitVec 3) (v : Addr) : (s.setN k v).outbox = s.outbox := rfl
@[simp] theorem State.setN_draws (k : BitVec 3) (v : Addr) : (s.setN k v).draws = s.draws := rfl
@[simp] theorem State.setN_clock (k : BitVec 3) (v : Addr) : (s.setN k v).clock = s.clock := rfl

@[simp] theorem State.setM_dalu (k : BitVec 3) (v : Addr) : (s.setM k v).dalu = s.dalu := rfl
@[simp] theorem State.setM_agu (k : BitVec 3) (v : Addr) : (s.setM k v).agu = { s.agu with m := s.agu.m.set k.toNat v k.isLt } := rfl
@[simp] theorem State.setM_ctl (k : BitVec 3) (v : Addr) : (s.setM k v).ctl = s.ctl := rfl
@[simp] theorem State.setM_ipr (k : BitVec 3) (v : Addr) : (s.setM k v).ipr = s.ipr := rfl
@[simp] theorem State.setM_bcr (k : BitVec 3) (v : Addr) : (s.setM k v).bcr = s.bcr := rfl
@[simp] theorem State.setM_mem (k : BitVec 3) (v : Addr) : (s.setM k v).mem = s.mem := rfl
@[simp] theorem State.setM_proc (k : BitVec 3) (v : Addr) : (s.setM k v).proc = s.proc := rfl
@[simp] theorem State.setM_rep (k : BitVec 3) (v : Addr) : (s.setM k v).rep = s.rep := rfl
@[simp] theorem State.setM_pending (k : BitVec 3) (v : Addr) : (s.setM k v).pending = s.pending := rfl
@[simp] theorem State.setM_vec (k : BitVec 3) (v : Addr) : (s.setM k v).vec = s.vec := rfl
@[simp] theorem State.setM_prev (k : BitVec 3) (v : Addr) : (s.setM k v).prev = s.prev := rfl
@[simp] theorem State.setM_aguWritten (k : BitVec 3) (v : Addr) : (s.setM k v).aguWritten = s.aguWritten := rfl
@[simp] theorem State.setM_plat (k : BitVec 3) (v : Addr) : (s.setM k v).plat = s.plat := rfl
@[simp] theorem State.setM_inbox (k : BitVec 3) (v : Addr) : (s.setM k v).inbox = s.inbox := rfl
@[simp] theorem State.setM_outbox (k : BitVec 3) (v : Addr) : (s.setM k v).outbox = s.outbox := rfl
@[simp] theorem State.setM_draws (k : BitVec 3) (v : Addr) : (s.setM k v).draws = s.draws := rfl
@[simp] theorem State.setM_clock (k : BitVec 3) (v : Addr) : (s.setM k v).clock = s.clock := rfl

@[simp] theorem State.poke_dalu (sp : Space) (a : Addr) (v : Word) : (s.poke sp a v).dalu = s.dalu := rfl
@[simp] theorem State.poke_agu (sp : Space) (a : Addr) (v : Word) : (s.poke sp a v).agu = s.agu := rfl
@[simp] theorem State.poke_ctl (sp : Space) (a : Addr) (v : Word) : (s.poke sp a v).ctl = s.ctl := rfl
@[simp] theorem State.poke_ipr (sp : Space) (a : Addr) (v : Word) : (s.poke sp a v).ipr = s.ipr := rfl
@[simp] theorem State.poke_bcr (sp : Space) (a : Addr) (v : Word) : (s.poke sp a v).bcr = s.bcr := rfl
@[simp] theorem State.poke_mem (sp : Space) (a : Addr) (v : Word) : (s.poke sp a v).mem = s.mem.put sp ((s.mem.get sp).write a v) := rfl
@[simp] theorem State.poke_proc (sp : Space) (a : Addr) (v : Word) : (s.poke sp a v).proc = s.proc := rfl
@[simp] theorem State.poke_rep (sp : Space) (a : Addr) (v : Word) : (s.poke sp a v).rep = s.rep := rfl
@[simp] theorem State.poke_pending (sp : Space) (a : Addr) (v : Word) : (s.poke sp a v).pending = s.pending := rfl
@[simp] theorem State.poke_vec (sp : Space) (a : Addr) (v : Word) : (s.poke sp a v).vec = s.vec := rfl
@[simp] theorem State.poke_prev (sp : Space) (a : Addr) (v : Word) : (s.poke sp a v).prev = s.prev := rfl
@[simp] theorem State.poke_aguWritten (sp : Space) (a : Addr) (v : Word) : (s.poke sp a v).aguWritten = s.aguWritten := rfl
@[simp] theorem State.poke_plat (sp : Space) (a : Addr) (v : Word) : (s.poke sp a v).plat = s.plat := rfl
@[simp] theorem State.poke_inbox (sp : Space) (a : Addr) (v : Word) : (s.poke sp a v).inbox = s.inbox := rfl
@[simp] theorem State.poke_outbox (sp : Space) (a : Addr) (v : Word) : (s.poke sp a v).outbox = s.outbox := rfl
@[simp] theorem State.poke_draws (sp : Space) (a : Addr) (v : Word) : (s.poke sp a v).draws = s.draws := rfl
@[simp] theorem State.poke_clock (sp : Space) (a : Addr) (v : Word) : (s.poke sp a v).clock = s.clock := rfl

@[simp] theorem State.tell_dalu (m : HostMsg) : (s.tell m).dalu = s.dalu := rfl
@[simp] theorem State.tell_agu (m : HostMsg) : (s.tell m).agu = s.agu := rfl
@[simp] theorem State.tell_ctl (m : HostMsg) : (s.tell m).ctl = s.ctl := rfl
@[simp] theorem State.tell_ipr (m : HostMsg) : (s.tell m).ipr = s.ipr := rfl
@[simp] theorem State.tell_bcr (m : HostMsg) : (s.tell m).bcr = s.bcr := rfl
@[simp] theorem State.tell_mem (m : HostMsg) : (s.tell m).mem = s.mem := rfl
@[simp] theorem State.tell_proc (m : HostMsg) : (s.tell m).proc = s.proc := rfl
@[simp] theorem State.tell_rep (m : HostMsg) : (s.tell m).rep = s.rep := rfl
@[simp] theorem State.tell_pending (m : HostMsg) : (s.tell m).pending = s.pending := rfl
@[simp] theorem State.tell_vec (m : HostMsg) : (s.tell m).vec = s.vec := rfl
@[simp] theorem State.tell_prev (m : HostMsg) : (s.tell m).prev = s.prev := rfl
@[simp] theorem State.tell_aguWritten (m : HostMsg) : (s.tell m).aguWritten = s.aguWritten := rfl
@[simp] theorem State.tell_plat (m : HostMsg) : (s.tell m).plat = s.plat := rfl
@[simp] theorem State.tell_inbox (m : HostMsg) : (s.tell m).inbox = s.inbox := rfl
@[simp] theorem State.tell_outbox (m : HostMsg) : (s.tell m).outbox = m :: s.outbox := rfl
@[simp] theorem State.tell_draws (m : HostMsg) : (s.tell m).draws = s.draws := rfl
@[simp] theorem State.tell_clock (m : HostMsg) : (s.tell m).clock = s.clock := rfl

@[simp] theorem State.pend_dalu (q : Source) : (s.pend q).dalu = s.dalu := rfl
@[simp] theorem State.pend_agu (q : Source) : (s.pend q).agu = s.agu := rfl
@[simp] theorem State.pend_ctl (q : Source) : (s.pend q).ctl = s.ctl := rfl
@[simp] theorem State.pend_ipr (q : Source) : (s.pend q).ipr = s.ipr := rfl
@[simp] theorem State.pend_bcr (q : Source) : (s.pend q).bcr = s.bcr := rfl
@[simp] theorem State.pend_mem (q : Source) : (s.pend q).mem = s.mem := rfl
@[simp] theorem State.pend_proc (q : Source) : (s.pend q).proc = s.proc := rfl
@[simp] theorem State.pend_rep (q : Source) : (s.pend q).rep = s.rep := rfl
@[simp] theorem State.pend_pending (q : Source) : (s.pend q).pending = s.pending.set q.idx true := rfl
@[simp] theorem State.pend_vec (q : Source) : (s.pend q).vec = s.vec := rfl
@[simp] theorem State.pend_prev (q : Source) : (s.pend q).prev = s.prev := rfl
@[simp] theorem State.pend_aguWritten (q : Source) : (s.pend q).aguWritten = s.aguWritten := rfl
@[simp] theorem State.pend_plat (q : Source) : (s.pend q).plat = s.plat := rfl
@[simp] theorem State.pend_inbox (q : Source) : (s.pend q).inbox = s.inbox := rfl
@[simp] theorem State.pend_outbox (q : Source) : (s.pend q).outbox = s.outbox := rfl
@[simp] theorem State.pend_draws (q : Source) : (s.pend q).draws = s.draws := rfl
@[simp] theorem State.pend_clock (q : Source) : (s.pend q).clock = s.clock := rfl

@[simp] theorem State.unpend_dalu (q : Source) : (s.unpend q).dalu = s.dalu := rfl
@[simp] theorem State.unpend_agu (q : Source) : (s.unpend q).agu = s.agu := rfl
@[simp] theorem State.unpend_ctl (q : Source) : (s.unpend q).ctl = s.ctl := rfl
@[simp] theorem State.unpend_ipr (q : Source) : (s.unpend q).ipr = s.ipr := rfl
@[simp] theorem State.unpend_bcr (q : Source) : (s.unpend q).bcr = s.bcr := rfl
@[simp] theorem State.unpend_mem (q : Source) : (s.unpend q).mem = s.mem := rfl
@[simp] theorem State.unpend_proc (q : Source) : (s.unpend q).proc = s.proc := rfl
@[simp] theorem State.unpend_rep (q : Source) : (s.unpend q).rep = s.rep := rfl
@[simp] theorem State.unpend_pending (q : Source) : (s.unpend q).pending = s.pending.set q.idx false := rfl
@[simp] theorem State.unpend_vec (q : Source) : (s.unpend q).vec = s.vec := rfl
@[simp] theorem State.unpend_prev (q : Source) : (s.unpend q).prev = s.prev := rfl
@[simp] theorem State.unpend_aguWritten (q : Source) : (s.unpend q).aguWritten = s.aguWritten := rfl
@[simp] theorem State.unpend_plat (q : Source) : (s.unpend q).plat = s.plat := rfl
@[simp] theorem State.unpend_inbox (q : Source) : (s.unpend q).inbox = s.inbox := rfl
@[simp] theorem State.unpend_outbox (q : Source) : (s.unpend q).outbox = s.outbox := rfl
@[simp] theorem State.unpend_draws (q : Source) : (s.unpend q).draws = s.draws := rfl
@[simp] theorem State.unpend_clock (q : Source) : (s.unpend q).clock = s.clock := rfl

end Sys2Proof.Machine
end

