-- ==== Sys2Proof/Laws/Memory.lean ====
section
/-! SUPPORT. The canonical form of memory and the basic laws of one word's read and write. -/

namespace Sys2Proof.Machine

theorem rising_mono {lo lo' : Nat} (h : lo' ≤ lo) :
    ∀ {cells : List (Nat × Word)}, Memory.rising lo cells = true → Memory.rising lo' cells = true
  | [], _ => rfl
  | (a, _) :: rest, h' => by
    simp only [Memory.rising, Bool.and_eq_true, decide_eq_true_eq] at h' ⊢
    exact ⟨⟨by omega, h'.1.2⟩, h'.2⟩

theorem rising_insertCell (a : Nat) (v : Word) (ha : a < 65536) :
    ∀ (lo : Nat) (cells : List (Nat × Word)), lo ≤ a → Memory.rising lo cells = true →
      Memory.rising lo (insertCell cells a v) = true
  | lo, [], hlo, _ => by simp [insertCell, Memory.rising, ha, hlo]
  | lo, (k, w) :: rest, hlo, h => by
    simp only [Memory.rising, Bool.and_eq_true, decide_eq_true_eq] at h
    unfold insertCell
    split
    · simp only [Memory.rising, Bool.and_eq_true, decide_eq_true_eq]
      exact ⟨⟨hlo, ha⟩, ⟨⟨by omega, h.1.2⟩, h.2⟩⟩
    · split
      · subst_vars
        simp only [Memory.rising, Bool.and_eq_true, decide_eq_true_eq]
        exact ⟨⟨hlo, ha⟩, h.2⟩
      · simp only [Memory.rising, Bool.and_eq_true, decide_eq_true_eq]
        exact ⟨h.1, rising_insertCell a v ha (k + 1) rest (by omega) h.2⟩

/-- A write keeps the canonical form. -/
theorem Memory.write_wf (m : Memory) (a : Addr) (v : Word) (h : m.wf = true) : (m.write a v).wf = true :=
  rising_insertCell a.toNat v (by have := a.isLt; omega) 0 m.cells (Nat.zero_le _) h

theorem lookupCell_insertCell (v : Word) (a b : Nat) :
    ∀ cells : List (Nat × Word),
      lookupCell (insertCell cells a v) b = if b = a then some v else lookupCell cells b
  | [] => by simp [insertCell, lookupCell, eq_comm]
  | (k, w) :: rest => by
    have ih := lookupCell_insertCell v a b rest
    unfold insertCell
    split
    · simp [lookupCell, eq_comm]
    · split
      · subst_vars
        by_cases hb : b = k <;> simp [lookupCell, hb, eq_comm]
      · simp only [lookupCell, ih]
        by_cases hk : k = b
        · subst hk
          have : k ≠ a := fun h => by simp_all
          simp [this]
        · simp [hk]

/-- A read after a write. -/
theorem Memory.read_write (sp : Space) (m : Memory) (a b : Addr) (v : Word) :
    (m.write a v).read sp b = if b = a then v else m.read sp b := by
  simp only [Memory.read, Memory.write, lookupCell_insertCell, BitVec.toNat_inj]
  split <;> simp_all

@[simp] theorem Mems.get_put_same (m : Mems) (sp : Space) (v : Memory) : (m.put sp v).get sp = v := by
  cases sp <;> rfl

theorem Mems.get_put_other (m : Mems) (sp sp' : Space) (v : Memory) (h : sp' ≠ sp) :
    (m.put sp v).get sp' = m.get sp' := by
  cases sp <;> cases sp' <;> first | rfl | exact absurd rfl h

/-- Every word reads as before a write, but the one written. -/
theorem State.peek_poke (sp sp' : Space) (a b : Addr) (v : Word) (s : State) :
    (s.poke sp a v).peek sp' b = if sp' = sp ∧ b = a then v else s.peek sp' b := by
  by_cases h : sp' = sp
  · subst h; simp [State.peek, Memory.read_write]
  · simp [State.peek, Mems.get_put_other _ _ _ _ h, h]

/-- A write of any space keeps the three canonical forms. -/
theorem Mems.put_write_wf (m : Mems) (sp : Space) (a : Addr) (v : Word)
    (h : m.x.wf = true ∧ m.y.wf = true ∧ m.p.wf = true) :
    let m' := m.put sp ((m.get sp).write a v)
    m'.x.wf = true ∧ m'.y.wf = true ∧ m'.p.wf = true := by
  cases sp
  · exact ⟨Memory.write_wf _ _ _ h.1, h.2.1, h.2.2⟩
  · exact ⟨h.1, Memory.write_wf _ _ _ h.2.1, h.2.2⟩
  · exact ⟨h.1, h.2.1, Memory.write_wf _ _ _ h.2.2⟩

/-- The memory after reset has the canonical form. -/
theorem reset_memory_wf :
    State.reset.mem.x.wf = true ∧ State.reset.mem.y.wf = true ∧ State.reset.mem.p.wf = true :=
  ⟨rfl, rfl, rfl⟩

end Sys2Proof.Machine
end

