-- ==== Sys2Proof/Laws/Ops.lean ====
section
/-! SUPPORT. One lemma for each shared operation that says what it can do. -/

namespace Sys2Proof.Machine

variable {s t : State}

/-! ### Memory and the I/O range -/

/-- An absolute short address is below the I/O range (20_memory.md R103, R123). -/
theorem isIo_shortAddr (aa : BitVec 6) : isIo (shortAddr aa) = false := by
  have := aa.isLt
  simp [isIo, shortAddr]
  omega

/-- The six bits of an I/O short address are its low bits (R103, R123). -/
theorem ioAddr_eq (pp : BitVec 6) : ioAddr pp = 0xFFC0 + pp.setWidth 16 := by
  revert pp
  decide

/-- A read below the I/O range is a memory read. -/
theorem loadData_memory {sp : DSpace} {a : Addr} (h : isIo a = false) (s : State) :
    s.loadData sp a = (s.peek sp.toSpace a, s) := by simp [State.loadData, h]

/-- A write below the I/O range is a memory write. -/
theorem storeData_memory {sp : DSpace} {a : Addr} (h : isIo a = false) (v : Word) (s : State) :
    s.storeData sp a v = s.poke sp.toSpace a v := by simp [State.storeData, h]

/-- A read changes the machine only by a message and a drawn value. -/
theorem loadData_state (sp : DSpace) (a : Addr) (s : State) :
    (s.loadData sp a).2 =
      { s with outbox := (s.loadData sp a).2.outbox, draws := (s.loadData sp a).2.draws } := by
  simp only [State.loadData]
  split
  · split
    · rfl
    · split <;> rfl
  · rfl

/-- A write changes memory, BCR, IPR or the messages. -/
theorem storeData_state (sp : DSpace) (a : Addr) (v : Word) (s : State) :
    s.storeData sp a v =
      { s with
        mem := (s.storeData sp a v).mem
        bcr := (s.storeData sp a v).bcr
        ipr := (s.storeData sp a v).ipr
        outbox := (s.storeData sp a v).outbox } := by
  simp only [State.storeData]
  split
  · split
    · rfl
    · split <;> rfl
  · rfl

/-- A word of memory after a write of X or Y: the word written at the address, outside the I/O range, and every
other word as it was. -/
theorem storeData_peek (sp : DSpace) (a : Addr) (v : Word) (sp' : Space) (a' : Addr) (s : State) :
    (s.storeData sp a v).peek sp' a' =
      if isIo a = false ∧ sp' = sp.toSpace ∧ a' = a then v else s.peek sp' a' := by
  by_cases h : isIo a = true
  · simp only [State.storeData, h]
    simp only [if_true, Bool.true_eq_false, false_and, if_false]
    split
    · rfl
    · split <;> rfl
  · have h0 : isIo a = false := by simpa using h
    rw [storeData_memory h0, State.peek_poke]
    by_cases h1 : sp' = sp.toSpace ∧ a' = a
    · obtain ⟨rfl, rfl⟩ := h1
      simp [h0]
    · rw [if_neg (by simpa using h1), if_neg (fun h2 => h1 h2.2)]

/-! ### Address generation -/

/-- An operand's address arithmetic leaves the machine alone or writes one Rn (20_memory.md R120). -/
theorem resolveInd_state {i : Ind} {a : Addr} (h : s.resolveInd i = .ok (a, t)) :
    t = s ∨ ∃ v, t = s.setR i.reg v := by
  simp only [State.resolveInd] at h
  split at h
  · cases h
  · split at h <;> (injection h with h; injection h with _ h; subst h)
    · exact .inl rfl
    · exact .inl rfl
    · exact .inr ⟨_, rfl⟩
    · exact .inr ⟨_, rfl⟩
    · exact .inr ⟨_, rfl⟩
    · exact .inr ⟨_, rfl⟩
    · exact .inr ⟨_, rfl⟩

/-- Resolving an effective address changes the address registers only. -/
theorem resolve_state {ea : Ea} {a : Addr} (h : s.resolve ea = .ok (a, t)) : t = { s with agu := t.agu } := by
  cases ea with
  | abs b =>
    simp only [State.resolve, Except.ok.injEq, Prod.mk.injEq] at h
    rw [← h.2]
  | ind i => rcases resolveInd_state h with rfl | ⟨v, rfl⟩ <;> rfl

/-! ### The program counter -/

/-- The end of an instruction changes PC, or the place in a vector. -/
theorem advance_state (n : Nat) (s : State) :
    s.advance n = { s with ctl := { s.ctl with pc := (s.advance n).ctl.pc }, vec := (s.advance n).vec } := by
  simp only [State.advance, State.setPc]
  cases h : s.vec <;> rfl

/-- Outside a vector PC moves past the words. -/
theorem advance_pc (n : Nat) (h : s.vec = none) : s.advance n = s.setPc (s.ctl.pc + BitVec.ofNat 16 n) := by
  simp [State.advance, h]

/-! ### The system stack (10_state.md R50, R51) -/

/-- A location on the stack is not location 0. -/
theorem onStack_ne (h : s.onStack = true) : s.ssLoc ≠ 0 := by
  simp only [State.onStack, Bool.and_eq_true, bne_iff_ne] at h
  exact h.1

/-- `SP + 1` changes SP, and the pending flags at location 15. -/
theorem incSp_state : s.incSp = { s with
    ctl := { s.ctl with sp := s.ctl.sp + 1 }, pending := s.incSp.pending } := by
  unfold State.incSp
  split <;> rfl

/-- What is written off the stack is lost. -/
theorem setSsTop_off (v : Addr × Addr) (h : s.onStack = false) : s.setSsTop v = s := by
  simp [State.setSsTop, h]

/-- A write of the location in use leaves every other location alone. -/
theorem setSsTop_other (v : Addr × Addr) (k : Fin 15) (h : k.val + 1 ≠ s.ssLoc.toNat) :
    (s.setSsTop v).ctl.stack[k] = s.ctl.stack[k] := by
  unfold State.setSsTop
  split
  · next hon =>
    have h0 : s.ssLoc.toNat ≠ 0 := fun h0 => onStack_ne hon (BitVec.eq_of_toNat_eq (by simpa using h0))
    have hl := s.ssLoc.isLt
    have hne : s.ssLoc.toNat - 1 ≠ k.val := by omega
    simp only [Fin.getElem_fin]
    exact Vector.getElem_set_ne (by omega) k.isLt hne
  · rfl

/-- A push below the stack's depth lands on the stack. -/
theorem onStack_incSp (h : s.ssLoc.toNat < s.plat.stackDepth.val) : s.incSp.onStack = true := by
  have hd := s.plat.stackDepth.isLt
  have h15 : s.ssLoc ≠ 15 := fun h2 => by rw [h2] at h; simp at h; omega
  have hl : s.incSp.ssLoc.toNat = s.ssLoc.toNat + 1 := by
    rw [State.incSp, if_neg h15]
    simp only [State.ssLoc, BitVec.toNat_setWidth, BitVec.toNat_add] at h ⊢
    have := s.ctl.sp.isLt
    simp at h ⊢
    omega
  have hp : s.incSp.plat = s.plat := by rw [State.incSp, if_neg h15]
  simp only [State.onStack, Bool.and_eq_true, bne_iff_ne, decide_eq_true_eq, hl, hp]
  refine ⟨fun h2 => ?_, h⟩
  rw [h2] at hl
  simp at hl

/-- A push below the stack's depth stores its pair at the next location and raises nothing. -/
theorem push_state (hi lo : Addr) (h : s.ssLoc.toNat < s.plat.stackDepth.val) :
    ∃ k, s.push hi lo = { s with ctl := { s.ctl with sp := s.ctl.sp + 1, stack := k } } ∧
      (s.push hi lo).ssTop = ((hi, lo), s.push hi lo) := by
  have hd := s.plat.stackDepth.isLt
  have h15 : s.ssLoc ≠ 15 := fun h2 => by rw [h2] at h; simp at h; omega
  have hon := onStack_incSp h
  have hp : s.push hi lo = { s.incSp with ctl := { s.incSp.ctl with
      stack := s.incSp.ctl.stack.set (s.incSp.ssLoc.toNat - 1) (hi, lo)
        (by have := s.incSp.ssLoc.isLt; omega) } } := by
    rw [State.push, State.setSsTop, if_pos hon]
  refine ⟨s.incSp.ctl.stack.set (s.incSp.ssLoc.toNat - 1) (hi, lo) (by have := s.incSp.ssLoc.isLt; omega), ?_, ?_⟩
  · rw [hp]
    simp only [State.incSp, if_neg h15]
  · have hon2 : (s.push hi lo).onStack = true := by rw [hp]; exact hon
    have hl : (s.push hi lo).ssLoc = s.incSp.ssLoc := by rw [hp]; rfl
    rw [State.ssTop, if_pos hon2]
    refine Prod.ext ?_ rfl
    simp only [State.ssPair, hl]
    simp only [hp]
    simp

/-- A pull from a location on the stack gives the pair in use and raises nothing. -/
theorem pull_state (h : s.onStack = true) :
    s.pull = (s.ssPair, { s with ctl := { s.ctl with sp := s.ctl.sp - 1 } }) := by
  have ht : s.ssTop = (s.ssPair, s) := by rw [State.ssTop, if_pos h]
  rw [State.pull, ht, State.decSp, if_neg (onStack_ne h)]

/-! ### Subroutine jumps (47_nonparallel_encoding_only.md R468, 70_reset_and_hazards.md R570) -/

/-- A subroutine jump that is not to LA inside a loop: the return pushed, or a long interrupt formed. -/
theorem call_ok (n : Nat) (target : Addr) (saved : BitVec 16) (h : s.lf = false ∨ target ≠ s.ctl.la) :
    s.call n target saved = .ok (match s.vec with
      | none => (s.push (s.ctl.pc + BitVec.ofNat 16 n) saved).setPc target
      | some v => s.longInterrupt v target saved) := by
  have h1 : ¬(s.lf = true ∧ target = s.ctl.la) := by rcases h with h | h <;> simp [h]
  unfold State.call
  refine (if_neg h1).trans ?_
  cases s.vec <;> rfl

/-! ### Class P instructions (42_arithmetic.md R290) -/

/-- A class P instruction completes exactly when its operation and its move do, and then writes both. -/
theorem parallel_next (alu : State → Except Fault AluOut) (mv : ParMove) (s t : State) :
    parallel alu mv s = .next t ↔
      ∃ o u, alu s = .ok o ∧ s.runMove mv = .ok u ∧ t = (u.putAlu o).advance (1 + mv.extra) := by
  unfold parallel
  split
  · next h => simp [h]
  · next o h =>
    split
    · next h2 => simp [h2]
    · next u h2 => simp [h, h2, eq_comm]

/-! ### The status register -/

/-- The bits of a status register with its CCR replaced. -/
theorem withCcr_bit (sr : BitVec 16) (k : Ccr) (i : Nat) :
    (withCcr sr k).getLsbD i = if i < 8 then k.bits.getLsbD i else decide (i < 16) && sr.getLsbD i := by
  simp only [withCcr, BitVec.getLsbD_append, BitVec.getLsbD_extractLsb']
  by_cases h : i < 8
  · simp [h]
  · have h1 : 8 + (i - 8) = i := by omega
    have h2 : (i - 8 < 8) = (i < 16) := by simp; omega
    simp [h, h1, h2]

/-- The CCR's bits, C first. -/
theorem ccr_bits (k : Ccr) :
    k.bits.getLsbD 0 = k.c ∧ k.bits.getLsbD 1 = k.v ∧ k.bits.getLsbD 2 = k.z ∧ k.bits.getLsbD 3 = k.n ∧
    k.bits.getLsbD 4 = k.u ∧ k.bits.getLsbD 5 = k.e ∧ k.bits.getLsbD 6 = k.l ∧ k.bits.getLsbD 7 = k.s := by
  obtain ⟨ks, kl, ke, ku, kn, kz, kv, kc⟩ := k
  revert ks kl ke ku kn kz kv kc
  decide

/-- A CCR written is read back, where the part has the S bit. -/
theorem ccr_setCcr (k : Ccr) (h : s.plat.hasSBit = true) : (s.setCcr k).ccr = k := by
  obtain ⟨h0, h1, h2, h3, h4, h5, h6, h7⟩ := ccr_bits k
  have hm : ∀ i < 8, s.plat.srMask.getLsbD i = true := by
    simp only [Platform.srMask, h]
    cases s.plat.hasDmBit <;> decide
  simp only [State.ccr, ccrOf, State.setCcr, State.setSr, BitVec.getLsbD_and, withCcr_bit, h0, h1, h2, h3, h4,
    h5, h6, h7, hm 0 (by decide), hm 1 (by decide), hm 2 (by decide), hm 3 (by decide), hm 4 (by decide),
    hm 5 (by decide), hm 6 (by decide), hm 7 (by decide), Bool.and_true, Nat.reduceLT, if_true]

/-- Writing the CCR keeps the scaling mode (10_state.md R45). -/
theorem scale_setCcr (k : Ccr) (s : State) : (s.setCcr k).scale = s.scale := by
  have h10 : s.plat.srMask.getLsbD 10 = true := by
    simp only [Platform.srMask]
    cases s.plat.hasSBit <;> cases s.plat.hasDmBit <;> decide
  have h11 : s.plat.srMask.getLsbD 11 = true := by
    simp only [Platform.srMask]
    cases s.plat.hasSBit <;> cases s.plat.hasDmBit <;> decide
  simp only [State.scale, scaleOf, State.setCcr, State.setSr, BitVec.getLsbD_and, withCcr_bit, h10, h11]
  simp

/-- Reading an accumulator through the limiter keeps the scaling mode. -/
theorem scale_limited (m : ScaleMode) (v : AccVal) (s : State) : (s.limited m v).scale = s.scale :=
  scale_setCcr _ s

/-- The same for the operand of a bit instruction. -/
theorem scale_limitedL (m : ScaleMode) (v : AccVal) (s : State) : (s.limitedL m v).scale = s.scale :=
  scale_setCcr _ s

/-- The CCR after a read through the limiter (R35, R66). -/
theorem ccr_limited (m : ScaleMode) (v : AccVal) (h : s.plat.hasSBit = true) :
    (s.limited m v).ccr =
      { s.ccr with s := s.plat.sBitFn.next s.ccr.s m v, l := s.ccr.l || extInUse m v } :=
  ccr_setCcr _ h

/-- In the reserved scaling mode a data-ALU operation of a scaling mode stops (R45). -/
theorem withScale_reserved (f : ScaleMode → State → AluOut) (h : s.scale = .error .scalingReserved) :
    withScale f s = .error .scalingReserved := by
  simp only [withScale, h]

/-! ### Pending flags (60_exceptions.md R504) -/

/-- A request changes the one pending flag. -/
theorem pending_pend (q q' : Source) (s : State) :
    (s.pend q).isPending q' = if q' = q then true else s.isPending q' := by
  simp only [State.pend, State.isPending]
  split
  · next h => subst h; simp
  · next h =>
    have h1 : q.idx.val ≠ q'.idx.val := by
      intro h2
      apply h
      revert h2
      cases q <;> cases q' <;> decide
    exact Vector.getElem_set_ne _ _ h1

/-! ### Events (00_scope.md R8) -/

/-- Leaving the stop state changes the requests, the messages, the counters and the processing state. -/
theorem leaveStop_state (s : State) :
    s.leaveStop =
      { s with
        pending := s.leaveStop.pending
        outbox := .pendingQuery :: s.outbox
        draws := s.draws + 1
        clock := s.leaveStop.clock
        proc := .normal } := by
  simp only [State.leaveStop, State.tell, State.clearMaskable]

/-- An event leaves the inbox and the parameters alone. -/
theorem takeEvent_frame (e : HostEvent) (s : State) :
    (s.takeEvent e).inbox = s.inbox ∧ (s.takeEvent e).plat = s.plat := by
  simp only [State.takeEvent]
  split
  case h_2 => rw [leaveStop_state]; exact ⟨rfl, rfl⟩
  all_goals try split
  all_goals exact ⟨rfl, rfl⟩

/-! ### What an instruction leaves for the next checks (70_reset_and_hazards.md R566) -/

/-- Everything after an instruction's own effect keeps its marks. -/
theorem marks_retire (i : Instr) (s t : State) :
    (retire i s t).prev = prevOf i ∧ (retire i s t).aguWritten = aguMoved i s := by
  let kept (v w : State) : Prop := w.prev = v.prev ∧ w.aguWritten = v.aguWritten
  have h1 : (s.traced (State.mark i s t)).prev = prevOf i ∧
      (s.traced (State.mark i s t)).aguWritten = aguMoved i s := by
    simp only [State.traced]
    split <;> exact ⟨rfl, rfl⟩
  have h2 : ∀ v, kept v (s.repPass v) := by
    intro v
    simp only [kept, State.repPass]
    split <;> exact ⟨rfl, rfl⟩
  have h3 : ∀ v : State, kept v v.pull.2 := by
    intro v
    simp only [kept, State.pull, State.decSp, State.ssTop]
    repeat' split
    all_goals exact ⟨rfl, rfl⟩
  have h4 : ∀ v : State, kept v v.loopEnd := by
    intro v
    simp only [kept, State.loopEnd]
    split
    · simp only [(h3 _).1, (h3 _).2, State.setLf, State.setSr, and_self]
    · simp only [State.ssTop]
      split <;> exact ⟨rfl, rfl⟩
  have h5 : ∀ v : State, kept v v.endVector := by
    intro v
    simp only [kept, State.endVector]
    repeat' split
    all_goals exact ⟨rfl, rfl⟩
  simp only [retire]
  split <;> split <;> simp only [(h2 _).1, (h2 _).2, (h4 _).1, (h4 _).2, (h5 _).1, (h5 _).2, h1, and_self]

/-! ### The step -/

/-- A step that has no event, REP pass, vector word or interrupt before it runs the next instruction
(60_exceptions.md R502). -/
theorem step_runNext (hi : s.inbox = []) (hr : s.rep.repeating = false) (hv : s.vec = none)
    (hp : s.proc = .normal) (ha : s.arbitrate = none) : step s = runNext s := by
  simp [step, State.takeSlot, hi, runState, hp, runCore, hr, hv, ha]

end Sys2Proof.Machine
end

