-- ==== Sys2Proof/Laws/PerInstr.lean ====
section
/-! SUPPORT. The per-instruction family EncodeLength: the encoder writes a second word exactly where the
instruction has two words (30_encoding.md R151). -/

namespace Sys2Proof.Laws

theorem extEa_isSome (ea : Ea) : (extEa ea).isSome = (1 + ea.extra == 2) := by cases ea <;> rfl

theorem extXfer_isSome (x : Xfer) : (extXfer x).isSome = (1 + x.extra == 2) := by
  cases x with
  | toReg s => cases s with
    | mem ea => exact extEa_isSome ea
    | imm v => rfl
  | toMem d => exact extEa_isSome d

theorem extMove_isSome (mv : ParMove) : (extMove mv).isSome = (1 + mv.extra == 2) := by
  cases mv <;> first | rfl | exact extXfer_isSome _ | exact extEa_isSome _

/-- A second word is written exactly for a two-word instruction. -/
def EncodeLength.Statement (i : Instr) : Prop := (encode i).2.isSome = (i.words == 2)

theorem EncodeLength.jsccShort (k : Cond) (a : BitVec 12) :
    EncodeLength.Statement (.jsccShort k a) := rfl
theorem EncodeLength.jccShort (k : Cond) (a : BitVec 12) :
    EncodeLength.Statement (.jccShort k a) := rfl
theorem EncodeLength.jsrShort (a : BitVec 12) :
    EncodeLength.Statement (.jsrShort a) := rfl
theorem EncodeLength.jmpShort (a : BitVec 12) :
    EncodeLength.Statement (.jmpShort a) := rfl
theorem EncodeLength.jsccEa (k : Cond) (ea : Ea) :
    EncodeLength.Statement (.jsccEa k ea) := extEa_isSome ea
theorem EncodeLength.jsrEa (ea : Ea) :
    EncodeLength.Statement (.jsrEa ea) := extEa_isSome ea
theorem EncodeLength.jccEa (k : Cond) (ea : Ea) :
    EncodeLength.Statement (.jccEa k ea) := extEa_isSome ea
theorem EncodeLength.jmpEa (ea : Ea) :
    EncodeLength.Statement (.jmpEa ea) := extEa_isSome ea
theorem EncodeLength.jssetPp (s : DSpace) (pp : BitVec 6) (n : BitVec 5) (t : Addr) :
    EncodeLength.Statement (.jssetPp s pp n t) := rfl
theorem EncodeLength.jssetEa (s : DSpace) (i : Ind) (n : BitVec 5) (t : Addr) :
    EncodeLength.Statement (.jssetEa s i n t) := rfl
theorem EncodeLength.jssetAa (s : DSpace) (aa : BitVec 6) (n : BitVec 5) (t : Addr) :
    EncodeLength.Statement (.jssetAa s aa n t) := rfl
theorem EncodeLength.jssetReg (r : Reg) (n : BitVec 5) (t : Addr) :
    EncodeLength.Statement (.jssetReg r n t) := rfl
theorem EncodeLength.jsclrPp (s : DSpace) (pp : BitVec 6) (n : BitVec 5) (t : Addr) :
    EncodeLength.Statement (.jsclrPp s pp n t) := rfl
theorem EncodeLength.jsclrEa (s : DSpace) (i : Ind) (n : BitVec 5) (t : Addr) :
    EncodeLength.Statement (.jsclrEa s i n t) := rfl
theorem EncodeLength.jsclrAa (s : DSpace) (aa : BitVec 6) (n : BitVec 5) (t : Addr) :
    EncodeLength.Statement (.jsclrAa s aa n t) := rfl
theorem EncodeLength.jsclrReg (r : Reg) (n : BitVec 5) (t : Addr) :
    EncodeLength.Statement (.jsclrReg r n t) := rfl
theorem EncodeLength.jsetPp (s : DSpace) (pp : BitVec 6) (n : BitVec 5) (t : Addr) :
    EncodeLength.Statement (.jsetPp s pp n t) := rfl
theorem EncodeLength.jsetEa (s : DSpace) (i : Ind) (n : BitVec 5) (t : Addr) :
    EncodeLength.Statement (.jsetEa s i n t) := rfl
theorem EncodeLength.jsetAa (s : DSpace) (aa : BitVec 6) (n : BitVec 5) (t : Addr) :
    EncodeLength.Statement (.jsetAa s aa n t) := rfl
theorem EncodeLength.jsetReg (r : Reg) (n : BitVec 5) (t : Addr) :
    EncodeLength.Statement (.jsetReg r n t) := rfl
theorem EncodeLength.jclrPp (s : DSpace) (pp : BitVec 6) (n : BitVec 5) (t : Addr) :
    EncodeLength.Statement (.jclrPp s pp n t) := rfl
theorem EncodeLength.jclrEa (s : DSpace) (i : Ind) (n : BitVec 5) (t : Addr) :
    EncodeLength.Statement (.jclrEa s i n t) := rfl
theorem EncodeLength.jclrAa (s : DSpace) (aa : BitVec 6) (n : BitVec 5) (t : Addr) :
    EncodeLength.Statement (.jclrAa s aa n t) := rfl
theorem EncodeLength.jclrReg (r : Reg) (n : BitVec 5) (t : Addr) :
    EncodeLength.Statement (.jclrReg r n t) := rfl
theorem EncodeLength.btstPp (s : DSpace) (pp : BitVec 6) (n : BitVec 5) :
    EncodeLength.Statement (.btstPp s pp n) := rfl
theorem EncodeLength.btstEa (s : DSpace) (ea : Ea) (n : BitVec 5) :
    EncodeLength.Statement (.btstEa s ea n) := extEa_isSome ea
theorem EncodeLength.btstAa (s : DSpace) (aa : BitVec 6) (n : BitVec 5) :
    EncodeLength.Statement (.btstAa s aa n) := rfl
theorem EncodeLength.btstReg (r : Reg) (n : BitVec 5) :
    EncodeLength.Statement (.btstReg r n) := rfl
theorem EncodeLength.bchgPp (s : DSpace) (pp : BitVec 6) (n : BitVec 5) :
    EncodeLength.Statement (.bchgPp s pp n) := rfl
theorem EncodeLength.bchgEa (s : DSpace) (ea : Ea) (n : BitVec 5) :
    EncodeLength.Statement (.bchgEa s ea n) := extEa_isSome ea
theorem EncodeLength.bchgAa (s : DSpace) (aa : BitVec 6) (n : BitVec 5) :
    EncodeLength.Statement (.bchgAa s aa n) := rfl
theorem EncodeLength.bchgReg (r : Reg) (n : BitVec 5) :
    EncodeLength.Statement (.bchgReg r n) := rfl
theorem EncodeLength.bsetPp (s : DSpace) (pp : BitVec 6) (n : BitVec 5) :
    EncodeLength.Statement (.bsetPp s pp n) := rfl
theorem EncodeLength.bsetEa (s : DSpace) (ea : Ea) (n : BitVec 5) :
    EncodeLength.Statement (.bsetEa s ea n) := extEa_isSome ea
theorem EncodeLength.bsetAa (s : DSpace) (aa : BitVec 6) (n : BitVec 5) :
    EncodeLength.Statement (.bsetAa s aa n) := rfl
theorem EncodeLength.bsetReg (r : Reg) (n : BitVec 5) :
    EncodeLength.Statement (.bsetReg r n) := rfl
theorem EncodeLength.bclrPp (s : DSpace) (pp : BitVec 6) (n : BitVec 5) :
    EncodeLength.Statement (.bclrPp s pp n) := rfl
theorem EncodeLength.bclrEa (s : DSpace) (ea : Ea) (n : BitVec 5) :
    EncodeLength.Statement (.bclrEa s ea n) := extEa_isSome ea
theorem EncodeLength.bclrAa (s : DSpace) (aa : BitVec 6) (n : BitVec 5) :
    EncodeLength.Statement (.bclrAa s aa n) := rfl
theorem EncodeLength.bclrReg (r : Reg) (n : BitVec 5) :
    EncodeLength.Statement (.bclrReg r n) := rfl
theorem EncodeLength.movepEa (ps : DSpace) (pp : BitVec 6) (es : DSpace) (x : Xfer) :
    EncodeLength.Statement (.movepEa ps pp es x) := extXfer_isSome x
theorem EncodeLength.movepP (ps : DSpace) (pp : BitVec 6) (w : Dir) (ea : Ea) :
    EncodeLength.Statement (.movepP ps pp w ea) := extEa_isSome ea
theorem EncodeLength.movepReg (ps : DSpace) (pp : BitVec 6) (w : Dir) (r : Reg) :
    EncodeLength.Statement (.movepReg ps pp w r) := rfl
theorem EncodeLength.movemEa (w : Dir) (ea : Ea) (r : Reg) :
    EncodeLength.Statement (.movemEa w ea r) := extEa_isSome ea
theorem EncodeLength.movemAa (w : Dir) (aa : BitVec 6) (r : Reg) :
    EncodeLength.Statement (.movemAa w aa r) := rfl
theorem EncodeLength.repImm (count : BitVec 12) :
    EncodeLength.Statement (.repImm count) := rfl
theorem EncodeLength.repReg (r : Reg) :
    EncodeLength.Statement (.repReg r) := rfl
theorem EncodeLength.repEa (s : DSpace) (i : Ind) :
    EncodeLength.Statement (.repEa s i) := rfl
theorem EncodeLength.repAa (s : DSpace) (aa : BitVec 6) :
    EncodeLength.Statement (.repAa s aa) := rfl
theorem EncodeLength.doImm (count : BitVec 12) (last : Addr) :
    EncodeLength.Statement (.doImm count last) := rfl
theorem EncodeLength.doReg (r : Reg) (last : Addr) :
    EncodeLength.Statement (.doReg r last) := rfl
theorem EncodeLength.doEa (s : DSpace) (i : Ind) (last : Addr) :
    EncodeLength.Statement (.doEa s i last) := rfl
theorem EncodeLength.doAa (s : DSpace) (aa : BitVec 6) (last : Addr) :
    EncodeLength.Statement (.doAa s aa last) := rfl
theorem EncodeLength.movecEa (s : DSpace) (x : Xfer) (c : CReg) :
    EncodeLength.Statement (.movecEa s x c) := extXfer_isSome x
theorem EncodeLength.movecAa (s : DSpace) (w : Dir) (aa : BitVec 6) (c : CReg) :
    EncodeLength.Statement (.movecAa s w aa c) := rfl
theorem EncodeLength.movecReg (w : Dir) (r : Reg) (c : CReg) :
    EncodeLength.Statement (.movecReg w r c) := rfl
theorem EncodeLength.movecImm (i : BitVec 8) (c : CReg) :
    EncodeLength.Statement (.movecImm i c) := rfl
theorem EncodeLength.lua (mm : UMode) (r : BitVec 3) (dst : RNReg) :
    EncodeLength.Statement (.lua mm r dst) := rfl
theorem EncodeLength.tcc (k : Cond) (src : TSrc) (d : Acc) :
    EncodeLength.Statement (.tcc k src d) := rfl
theorem EncodeLength.tccR (k : Cond) (src : TSrc) (d : Acc) (s2 d2 : BitVec 3) :
    EncodeLength.Statement (.tccR k src d s2 d2) := rfl
theorem EncodeLength.norm (r : BitVec 3) (d : Acc) :
    EncodeLength.Statement (.norm r d) := rfl
theorem EncodeLength.divStep (src : WReg) (d : Acc) :
    EncodeLength.Statement (.divStep src d) := rfl
theorem EncodeLength.macImm (neg : Bool) (qq : BitVec 2) (d : Acc) (sh : BitVec 5) :
    EncodeLength.Statement (.macImm neg qq d sh) := rfl
theorem EncodeLength.macrImm (neg : Bool) (qq : BitVec 2) (d : Acc) (sh : BitVec 5) :
    EncodeLength.Statement (.macrImm neg qq d sh) := rfl
theorem EncodeLength.mpyImm (neg : Bool) (qq : BitVec 2) (d : Acc) (sh : BitVec 5) :
    EncodeLength.Statement (.mpyImm neg qq d sh) := rfl
theorem EncodeLength.mpyrImm (neg : Bool) (qq : BitVec 2) (d : Acc) (sh : BitVec 5) :
    EncodeLength.Statement (.mpyrImm neg qq d sh) := rfl
theorem EncodeLength.debugcc (k : Cond) :
    EncodeLength.Statement (.debugcc k) := rfl
theorem EncodeLength.debug :
    EncodeLength.Statement (.debug) := rfl
theorem EncodeLength.ori (i : BitVec 8) (d : ImmDest) :
    EncodeLength.Statement (.ori i d) := rfl
theorem EncodeLength.andi (i : BitVec 8) (d : ImmDest) :
    EncodeLength.Statement (.andi i d) := rfl
theorem EncodeLength.enddo :
    EncodeLength.Statement (.enddo) := rfl
theorem EncodeLength.stop :
    EncodeLength.Statement (.stop) := rfl
theorem EncodeLength.wait :
    EncodeLength.Statement (.wait) := rfl
theorem EncodeLength.reset :
    EncodeLength.Statement (.reset) := rfl
theorem EncodeLength.rts :
    EncodeLength.Statement (.rts) := rfl
theorem EncodeLength.dec (d : Acc) :
    EncodeLength.Statement (.dec d) := rfl
theorem EncodeLength.inc (d : Acc) :
    EncodeLength.Statement (.inc d) := rfl
theorem EncodeLength.swi :
    EncodeLength.Statement (.swi) := rfl
theorem EncodeLength.illegal :
    EncodeLength.Statement (.illegal) := rfl
theorem EncodeLength.rti :
    EncodeLength.Statement (.rti) := rfl
theorem EncodeLength.nop :
    EncodeLength.Statement (.nop) := rfl
theorem EncodeLength.tfrAcc (d : Acc) (mv : ParMove) :
    EncodeLength.Statement (.tfrAcc d mv) := extMove_isSome mv
theorem EncodeLength.addr (d : Acc) (mv : ParMove) :
    EncodeLength.Statement (.addr d mv) := extMove_isSome mv
theorem EncodeLength.tst (d : Acc) (mv : ParMove) :
    EncodeLength.Statement (.tst d mv) := extMove_isSome mv
theorem EncodeLength.cmpAcc (d : Acc) (mv : ParMove) :
    EncodeLength.Statement (.cmpAcc d mv) := extMove_isSome mv
theorem EncodeLength.subr (d : Acc) (mv : ParMove) :
    EncodeLength.Statement (.subr d mv) := extMove_isSome mv
theorem EncodeLength.cmpmAcc (d : Acc) (mv : ParMove) :
    EncodeLength.Statement (.cmpmAcc d mv) := extMove_isSome mv
theorem EncodeLength.addAcc (d : Acc) (mv : ParMove) :
    EncodeLength.Statement (.addAcc d mv) := extMove_isSome mv
theorem EncodeLength.rnd (d : Acc) (mv : ParMove) :
    EncodeLength.Statement (.rnd d mv) := extMove_isSome mv
theorem EncodeLength.addl (d : Acc) (mv : ParMove) :
    EncodeLength.Statement (.addl d mv) := extMove_isSome mv
theorem EncodeLength.clr (d : Acc) (mv : ParMove) :
    EncodeLength.Statement (.clr d mv) := extMove_isSome mv
theorem EncodeLength.subAcc (d : Acc) (mv : ParMove) :
    EncodeLength.Statement (.subAcc d mv) := extMove_isSome mv
theorem EncodeLength.subl (d : Acc) (mv : ParMove) :
    EncodeLength.Statement (.subl d mv) := extMove_isSome mv
theorem EncodeLength.notAcc (d : Acc) (mv : ParMove) :
    EncodeLength.Statement (.notAcc d mv) := extMove_isSome mv
theorem EncodeLength.addLong (l : LReg) (d : Acc) (mv : ParMove) :
    EncodeLength.Statement (.addLong l d mv) := extMove_isSome mv
theorem EncodeLength.adc (l : LReg) (d : Acc) (mv : ParMove) :
    EncodeLength.Statement (.adc l d mv) := extMove_isSome mv
theorem EncodeLength.subLong (l : LReg) (d : Acc) (mv : ParMove) :
    EncodeLength.Statement (.subLong l d mv) := extMove_isSome mv
theorem EncodeLength.sbc (l : LReg) (d : Acc) (mv : ParMove) :
    EncodeLength.Statement (.sbc l d mv) := extMove_isSome mv
theorem EncodeLength.asr (d : Acc) (mv : ParMove) :
    EncodeLength.Statement (.asr d mv) := extMove_isSome mv
theorem EncodeLength.lsr (d : Acc) (mv : ParMove) :
    EncodeLength.Statement (.lsr d mv) := extMove_isSome mv
theorem EncodeLength.absAcc (d : Acc) (mv : ParMove) :
    EncodeLength.Statement (.absAcc d mv) := extMove_isSome mv
theorem EncodeLength.ror (d : Acc) (mv : ParMove) :
    EncodeLength.Statement (.ror d mv) := extMove_isSome mv
theorem EncodeLength.asl (d : Acc) (mv : ParMove) :
    EncodeLength.Statement (.asl d mv) := extMove_isSome mv
theorem EncodeLength.lsl (d : Acc) (mv : ParMove) :
    EncodeLength.Statement (.lsl d mv) := extMove_isSome mv
theorem EncodeLength.neg (d : Acc) (mv : ParMove) :
    EncodeLength.Statement (.neg d mv) := extMove_isSome mv
theorem EncodeLength.rol (d : Acc) (mv : ParMove) :
    EncodeLength.Statement (.rol d mv) := extMove_isSome mv
theorem EncodeLength.addWord (w : WReg) (d : Acc) (mv : ParMove) :
    EncodeLength.Statement (.addWord w d mv) := extMove_isSome mv
theorem EncodeLength.tfrWord (w : WReg) (d : Acc) (mv : ParMove) :
    EncodeLength.Statement (.tfrWord w d mv) := extMove_isSome mv
theorem EncodeLength.orWord (w : WReg) (d : Acc) (mv : ParMove) :
    EncodeLength.Statement (.orWord w d mv) := extMove_isSome mv
theorem EncodeLength.eorWord (w : WReg) (d : Acc) (mv : ParMove) :
    EncodeLength.Statement (.eorWord w d mv) := extMove_isSome mv
theorem EncodeLength.subWord (w : WReg) (d : Acc) (mv : ParMove) :
    EncodeLength.Statement (.subWord w d mv) := extMove_isSome mv
theorem EncodeLength.cmpWord (w : WReg) (d : Acc) (mv : ParMove) :
    EncodeLength.Statement (.cmpWord w d mv) := extMove_isSome mv
theorem EncodeLength.andWord (w : WReg) (d : Acc) (mv : ParMove) :
    EncodeLength.Statement (.andWord w d mv) := extMove_isSome mv
theorem EncodeLength.cmpmWord (w : WReg) (d : Acc) (mv : ParMove) :
    EncodeLength.Statement (.cmpmWord w d mv) := extMove_isSome mv
theorem EncodeLength.mpy (neg : Bool) (q : MulPair) (d : Acc) (mv : ParMove) :
    EncodeLength.Statement (.mpy neg q d mv) := extMove_isSome mv
theorem EncodeLength.mpyr (neg : Bool) (q : MulPair) (d : Acc) (mv : ParMove) :
    EncodeLength.Statement (.mpyr neg q d mv) := extMove_isSome mv
theorem EncodeLength.mac (neg : Bool) (q : MulPair) (d : Acc) (mv : ParMove) :
    EncodeLength.Statement (.mac neg q d mv) := extMove_isSome mv
theorem EncodeLength.macr (neg : Bool) (q : MulPair) (d : Acc) (mv : ParMove) :
    EncodeLength.Statement (.macr neg q d mv) := extMove_isSome mv
theorem EncodeLength.moveNone :
    EncodeLength.Statement (.moveNone) := rfl
theorem EncodeLength.moveImm (dst : Reg5) (i : BitVec 8) :
    EncodeLength.Statement (.moveImm dst i) := rfl
theorem EncodeLength.moveReg (src dst : Reg5) :
    EncodeLength.Statement (.moveReg src dst) := rfl
theorem EncodeLength.moveUpd (mm : UMode) (r : BitVec 3) :
    EncodeLength.Statement (.moveUpd mm r) := rfl
theorem EncodeLength.moveXEa (x : Xfer) (r : Reg5) :
    EncodeLength.Statement (.moveXEa x r) := extXfer_isSome x
theorem EncodeLength.moveXAa (w : Dir) (aa : BitVec 6) (r : Reg5) :
    EncodeLength.Statement (.moveXAa w aa r) := rfl
theorem EncodeLength.moveYEa (x : Xfer) (r : Reg5) :
    EncodeLength.Statement (.moveYEa x r) := extXfer_isSome x
theorem EncodeLength.moveYAa (w : Dir) (aa : BitVec 6) (r : Reg5) :
    EncodeLength.Statement (.moveYAa w aa r) := rfl
theorem EncodeLength.moveLEa (w : Dir) (ea : Ea) (l : LOp) :
    EncodeLength.Statement (.moveLEa w ea l) := extEa_isSome ea
theorem EncodeLength.moveLAa (w : Dir) (aa : BitVec 6) (l : LOp) :
    EncodeLength.Statement (.moveLAa w aa l) := rfl
theorem EncodeLength.moveXR (ee : XReg) (x : Xfer) (d : Acc) (f : YSel) :
    EncodeLength.Statement (.moveXR ee x d f) := extXfer_isSome x
theorem EncodeLength.moveRY (d : Acc) (e : XSel) (ff : YReg) (x : Xfer) :
    EncodeLength.Statement (.moveRY d e ff x) := extXfer_isSome x
theorem EncodeLength.moveXR2 (d : Acc) (ea : Ea) :
    EncodeLength.Statement (.moveXR2 d ea) := extEa_isSome ea
theorem EncodeLength.moveRY2 (d : Acc) (ea : Ea) :
    EncodeLength.Statement (.moveRY2 d ea) := extEa_isSome ea
theorem EncodeLength.moveXY (wx : Dir) (ee : XReg) (mx : XYMode) (rx : BitVec 3) (wy : Dir) (ff : YReg) (my : XYMode) (ry : BitVec 2) :
    EncodeLength.Statement (.moveXY wx ee mx rx wy ff my ry) := rfl

end Sys2Proof.Laws
end

