-- ==== Sys2Proof/Tests/Slice0.lean ====
section
/-! SUPPORT. Tests: decoding of words written out from the opcode table, the well-formedness checks, one-step
results from the spec's examples and tables, and a witness of the hypotheses of every statement. -/

open Sys2Proof Sys2Proof.Machine

/-- Words of the jumps, filled into the patterns of the opcode table. -/
theorem test_decode_jumps :
    decode 0b000011111001101001011100 0 = .ok (.jsccShort .lt 0xA5C) ∧
    decode 0b000011100101100000000001 0 = .ok (.jccShort .ec 0x801) ∧
    decode 0b000011010000111111111111 0 = .ok (.jsrShort 0xFFF) ∧
    decode 0b000011000000000100100011 0 = .ok (.jmpShort 0x123) ∧
    decode 0b000010111101010110101111 0 = .ok (.jsccEa .le (.ind ⟨.postDec, 5⟩)) ∧
    decode 0b000010111111000010101110 0x12BEEF = .ok (.jsccEa .ls (.abs 0xBEEF)) ∧
    decode 0b000010111111111010000000 0 = .ok (.jsrEa (.ind ⟨.preDec, 6⟩)) ∧
    decode 0b000010101100101110101000 0 = .ok (.jccEa .cs (.ind ⟨.postAddN, 3⟩)) ∧
    decode 0b000010101110011110000000 0 = .ok (.jmpEa (.ind ⟨.noUpdate, 7⟩)) ∧
    decode 0b000010101111000010000000 0x008001 = .ok (.jmpEa (.abs 0x8001)) := by decide

/-- Words of the bitjumps, filled into the patterns of the opcode table. -/
theorem test_decode_bitjumps :
    decode 0b000010111010110010110001 0x994321 = .ok (.jssetPp .x 0b101100 17 0x4321) ∧
    decode 0b000010110100001111110111 0x000042 = .ok (.jssetEa .y ⟨.postSubN, 3⟩ 23 0x0042) ∧
    decode 0b000010110010100010100000 0xFFFFFE = .ok (.jssetAa .x 40 0 0xFFFE) ∧
    decode 0b000010111100010100101001 0x001000 = .ok (.jssetReg (.d .x1) 9 0x1000) ∧
    decode 0b000010111010110111010010 0x994321 = .ok (.jsclrPp .y 0b101101 18 0x4321) ∧
    decode 0b000010110110110010010110 0x000042 = .ok (.jsclrEa .x ⟨.indexed, 4⟩ 22 0x0042) ∧
    decode 0b000010110010100111000001 0xFFFFFE = .ok (.jsclrAa .y 41 1 0xFFFE) ∧
    decode 0b000010111111110000001010 0x001000 = .ok (.jsclrReg (.c .ssh) 10 0x1000) ∧
    decode 0b000010101010110010110011 0x994321 = .ok (.jsetPp .x 0b101100 19 0x4321) ∧
    decode 0b000010100111110111110101 0x000042 = .ok (.jsetEa .y ⟨.preDec, 5⟩ 21 0x0042) ∧
    decode 0b000010100010101011100010 0xFFFFFE = .ok (.jsetAa .y 42 2 0xFFFE) ∧
    decode 0b000010101110011000101011 0x001000 = .ok (.jsetReg (.m 6) 11 0x1000) ∧
    decode 0b000010101010110111010100 0x994321 = .ok (.jclrPp .y 0b101101 20 0x4321) ∧
    decode 0b000010100101111010010100 0x000042 = .ok (.jclrEa .x ⟨.postInc, 6⟩ 20 0x0042) ∧
    decode 0b000010100010101110000011 0xFFFFFE = .ok (.jclrAa .x 43 3 0xFFFE) ∧
    decode 0b000010101101101000001100 0x001000 = .ok (.jclrReg (.n 2) 12 0x1000) := by decide

/-- Words of the bits, filled into the patterns of the opcode table. -/
theorem test_decode_bits_1 :
    decode 0b000010111010000101110100 0 = .ok (.btstPp .y 33 20) ∧
    decode 0b000010110101100100100101 0 = .ok (.btstEa .x (.ind ⟨.postInc, 1⟩) 5) ∧
    decode 0b000010110011111100110000 0 = .ok (.btstAa .x 63 16) ∧
    decode 0b000010111100101001100001 0 = .ok (.btstReg (.d .a2) 1) ∧
    decode 0b000010111010001000010101 0 = .ok (.bchgPp .x 34 21) ∧
    decode 0b000010110100101101000110 0 = .ok (.bchgEa .y (.ind ⟨.postAddN, 3⟩) 6) ∧
    decode 0b000010110011111001010001 0 = .ok (.bchgAa .y 62 17) ∧
    decode 0b000010111111101001000010 0 = .ok (.bchgReg (.c .omr) 2) ∧
    decode 0b000010101010001101110110 0 = .ok (.bsetPp .y 35 22) ∧
    decode 0b000010100110110100100111 0 = .ok (.bsetEa .x (.ind ⟨.indexed, 5⟩) 7) ∧
    decode 0b000010100011110101110010 0 = .ok (.bsetAa .y 61 18) ∧
    decode 0b000010101101010101100011 0 = .ok (.bsetReg (.r 5) 3) ∧
    decode 0b000010101010010000010111 0 = .ok (.bclrPp .x 36 23) ∧
    decode 0b000010100100011101001000 0 = .ok (.bclrEa .y (.ind ⟨.postSubN, 7⟩) 8) ∧
    decode 0b000010100011110000010011 0 = .ok (.bclrAa .x 60 19) ∧
    decode 0b000010101111111101000100 0 = .ok (.bclrReg (.c .lc) 4) := by decide

/-- Words of the bits, filled into the patterns of the opcode table. -/
theorem test_decode_bits_2 :
    decode 0b000010110111000001010111 0x00FFC1 = .ok (.bchgEa .y (.abs 0xFFC1) 23) := by decide

/-- Words of the peripheral moves, filled into the patterns of the opcode table. -/
theorem test_decode_peripheral_moves :
    decode 0b000010011101110010000011 0 = .ok (.movepEa .y 0b000011 .x (.toReg (.mem (.ind ⟨.postInc, 4⟩)))) ∧
    decode 0b000010000111000011111110 0x000100 = .ok (.movepEa .x 0b111110 .y (.toMem (.abs 0x0100))) ∧
    decode 0b000010001111010010111111 0xABCDEF = .ok (.movepEa .x 0b111111 .x (.toReg (.imm 0xABCDEF))) ∧
    decode 0b000010010110100101000101 0 = .ok (.movepP .y 5 .toMem (.ind ⟨.indexed, 1⟩)) ∧
    decode 0b000010001111100100001001 0 = .ok (.movepReg .x 9 .toReg (.c .sr)) := by decide

/-- Words of the program memory moves, filled into the patterns of the opcode table. -/
theorem test_decode_program_memory_moves :
    decode 0b000001111100011010111110 0 = .ok (.movemEa .toReg (.ind ⟨.postSubN, 6⟩) (.c .la)) ∧
    decode 0b000001110010101000001101 0 = .ok (.movemAa .toMem 0x2A (.d .b1)) := by decide

/-- Words of the loops, filled into the patterns of the opcode table. -/
theorem test_decode_loops :
    decode 0b000001100000011110101010 0 = .ok (.repImm 0xA07) ∧
    decode 0b000001101101101100100000 0 = .ok (.repReg (.n 3)) ∧
    decode 0b000001100111101001100000 0 = .ok (.repEa .y ⟨.preDec, 2⟩) ∧
    decode 0b000001100011111100100000 0 = .ok (.repAa .x 0x3F) ∧
    decode 0b000001100000001110000101 0x000104 = .ok (.doImm 0x503 0x0104) ∧
    decode 0b000001101111111100000000 0x00FFFF = .ok (.doReg (.c .lc) 0xFFFF) ∧
    decode 0b000001100100111100000000 0x000200 = .ok (.doEa .x ⟨.postAddN, 7⟩ 0x0200) ∧
    decode 0b000001100001000101000000 0x000300 = .ok (.doAa .y 0x11 0x0300) := by decide

/-- Words of the control moves, filled into the patterns of the opcode table. -/
theorem test_decode_control_moves :
    decode 0b000001011101000001111011 0 = .ok (.movecEa .y (.toReg (.mem (.ind ⟨.postDec, 0⟩))) (.c .sp)) ∧
    decode 0b000001011111010000100011 0x0000FF = .ok (.movecEa .x (.toReg (.imm 0x0000FF)) (.m 3)) ∧
    decode 0b000001010010000100111101 0 = .ok (.movecAa .x .toMem 0x21 (.c .ssl)) ∧
    decode 0b000001001100011110111010 0 = .ok (.movecReg .toReg (.d .y1) (.c .omr)) ∧
    decode 0b000001011000000010111110 0 = .ok (.movecImm 0x80 (.c .la)) ∧
    decode 0b000001000100010100011100 0 = .ok (.lua .subN 5 (.n 4)) := by decide

/-- Words of the other data-ALU, filled into the patterns of the opcode table. -/
theorem test_decode_other_data_ALU :
    decode 0b000000100001000000001000 0 = .ok (.tcc .ge .other .b) ∧
    decode 0b000000111101011001010001 0 = .ok (.tccR .es (.word .y0) .a 6 1) ∧
    decode 0b000000011101101100011101 0 = .ok (.norm 3 .b) ∧
    decode 0b000000011000000001100000 0 = .ok (.divStep .x1 .a) ∧
    decode 0b000000010001001111101110 0 = .ok (.macImm true 2 .b 19) ∧
    decode 0b000000010000000111010011 0 = .ok (.macrImm false 1 .a 1) ∧
    decode 0b000000010001111011110100 0 = .ok (.mpyImm true 3 .a 30) ∧
    decode 0b000000010000011111001001 0 = .ok (.mpyrImm false 0 .b 7) ∧
    decode 0b000000000000000000001011 0 = .ok (.dec .b) ∧
    decode 0b000000000000000000001000 0 = .ok (.inc .a) := by decide

/-- Words of the control, filled into the patterns of the opcode table. -/
theorem test_decode_control :
    decode 0b000000000000001100001100 0 = .ok (.debugcc .nr) ∧
    decode 0b000000000000001000000000 0 = .ok .debug ∧
    decode 0b000000000000001111111000 0 = .ok (.ori 0x03 .mr) ∧
    decode 0b000000001111111010111001 0 = .ok (.andi 0xFE .ccr) ∧
    decode 0b000000000100000011111010 0 = .ok (.ori 0x40 .omr) ∧
    decode 0b000000000000000010001100 0 = .ok .enddo ∧
    decode 0b000000000000000010000111 0 = .ok .stop ∧
    decode 0b000000000000000010000110 0 = .ok .wait ∧
    decode 0b000000000000000010000100 0 = .ok .reset ∧
    decode 0b000000000000000000001100 0 = .ok .rts ∧
    decode 0b000000000000000000000110 0 = .ok .swi ∧
    decode 0b000000000000000000000101 0 = .ok .illegal ∧
    decode 0b000000000000000000000100 0 = .ok .rti ∧
    decode 0b000000000000000000000000 0 = .ok .nop := by decide

/-- Words of the accumulator operations, filled into the patterns of the opcode table. -/
theorem test_decode_accumulator_operations_1 :
    decode 0b001000000000000000000001 0 = .ok (.tfrAcc .a .none) ∧
    decode 0b001000000000000000001010 0 = .ok (.addr .b .none) ∧
    decode 0b001000000000000000000011 0 = .ok (.tst .a .none) ∧
    decode 0b001000000000000000001101 0 = .ok (.cmpAcc .b .none) ∧
    decode 0b001000000000000000000110 0 = .ok (.subr .a .none) ∧
    decode 0b001000000000000000001111 0 = .ok (.cmpmAcc .b .none) ∧
    decode 0b001000000000000000010000 0 = .ok (.addAcc .a .none) ∧
    decode 0b001000000000000000011001 0 = .ok (.rnd .b .none) ∧
    decode 0b001000000000000000010010 0 = .ok (.addl .a .none) ∧
    decode 0b001000000000000000011011 0 = .ok (.clr .b .none) ∧
    decode 0b001000000000000000010100 0 = .ok (.subAcc .a .none) ∧
    decode 0b001000000000000000011110 0 = .ok (.subl .b .none) ∧
    decode 0b001000000000000000010111 0 = .ok (.notAcc .a .none) ∧
    decode 0b001000000100000000101010 0 = .ok (.asr .b (.upd .subN 0)) ∧
    decode 0b001000000100100100100011 0 = .ok (.lsr .a (.upd .addN 1)) ∧
    decode 0b001000000101001000101110 0 = .ok (.absAcc .b (.upd .dec 2)) := by decide

/-- Words of the accumulator operations, filled into the patterns of the opcode table. -/
theorem test_decode_accumulator_operations_2 :
    decode 0b001000000101101100100111 0 = .ok (.ror .a (.upd .inc 3)) ∧
    decode 0b001000000100010000111010 0 = .ok (.asl .b (.upd .subN 4)) ∧
    decode 0b001000000100110100110011 0 = .ok (.lsl .a (.upd .addN 5)) ∧
    decode 0b001000000101011000111110 0 = .ok (.neg .b (.upd .dec 6)) ∧
    decode 0b001000000101111100110111 0 = .ok (.rol .a (.upd .inc 7)) := by decide

/-- Words of the source operations, filled into the patterns of the opcode table. -/
theorem test_decode_source_operations :
    decode 0b001000000000000000110000 0 = .ok (.addLong .y .a .none) ∧
    decode 0b001000000000000000100001 0 = .ok (.adc .x .a .none) ∧
    decode 0b001000000000000000111100 0 = .ok (.subLong .y .b .none) ∧
    decode 0b001000000000000000101101 0 = .ok (.sbc .x .b .none) ∧
    decode 0b001000000000000001011000 0 = .ok (.addWord .y0 .b .none) ∧
    decode 0b001000000000000001100001 0 = .ok (.tfrWord .x1 .a .none) ∧
    decode 0b001000000000000001111010 0 = .ok (.orWord .y1 .b .none) ∧
    decode 0b001000000000000001000011 0 = .ok (.eorWord .x0 .a .none) ∧
    decode 0b001000000000000001011100 0 = .ok (.subWord .y0 .b .none) ∧
    decode 0b001000000000000001100101 0 = .ok (.cmpWord .x1 .a .none) ∧
    decode 0b001000000000000001111110 0 = .ok (.andWord .y1 .b .none) ∧
    decode 0b001000000000000001000111 0 = .ok (.cmpmWord .x0 .a .none) := by decide

/-- Words of the multiplies, filled into the patterns of the opcode table. -/
theorem test_decode_multiplies :
    decode 0b001000000000000010000000 0 = .ok (.mpy false .x0x0 .a .none) ∧
    decode 0b001000000000000011111100 0 = .ok (.mpy true .y1x1 .b .none) ∧
    decode 0b001000000000000010011001 0 = .ok (.mpyr false .y0y0 .b .none) ∧
    decode 0b001000000000000011100101 0 = .ok (.mpyr true .x1y0 .a .none) ∧
    decode 0b001000000000000010100010 0 = .ok (.mac false .x1x0 .a .none) ∧
    decode 0b001000000000000011011110 0 = .ok (.mac true .y0x0 .b .none) ∧
    decode 0b001000000000000010111011 0 = .ok (.macr false .y1y0 .b .none) ∧
    decode 0b001000000000000011000111 0 = .ok (.macr true .x0y1 .a .none) := by decide

/-- Words of the moves, filled into the patterns of the opcode table. -/
theorem test_decode_moves :
    decode 0b001000000000000000000000 0 = .ok .moveNone ∧
    decode 0b001010101001110000000000 0 = .ok (.moveImm (.d .a2) 0x9C) ∧
    decode 0b001000101001111100000000 0 = .ok (.moveReg (.r 4) (.n 7)) ∧
    decode 0b001000000100111000000000 0 = .ok (.moveUpd .addN 6) ∧
    decode 0b010100010101101000000000 0 = .ok (.moveXEa (.toMem (.ind ⟨.postInc, 2⟩)) (.d .b0)) ∧
    decode 0b010001101111000000000000 0xFF1234 = .ok (.moveXEa (.toReg (.mem (.abs 0x1234))) (.d .y0)) ∧
    decode 0b011000011000011100000000 0 = .ok (.moveXAa .toReg 0x07 (.r 1)) ∧
    decode 0b010111101111010000000000 0x800000 = .ok (.moveYEa (.toReg (.imm 0x800000)) (.d .a)) ∧
    decode 0b011111010011000000000000 0 = .ok (.moveYAa .toMem 0x30 (.n 5)) ∧
    decode 0b010010110111101100000000 0 = .ok (.moveLEa .toMem (.ind ⟨.preDec, 3⟩) .ba) ∧
    decode 0b010010001000000100000000 0 = .ok (.moveLAa .toReg 0x01 .a) := by decide

/-- Words of the double moves, filled into the patterns of the opcode table. -/
theorem test_decode_double_moves :
    decode 0b000110110000110000000000 0 = .ok (.moveXR .a (.toMem (.ind ⟨.postAddN, 4⟩)) .b .y1) ∧
    decode 0b000101111110000000000000 0 = .ok (.moveRY .a .x1 .b (.toReg (.mem (.ind ⟨.noUpdate, 0⟩)))) ∧
    decode 0b000010010001010100000000 0 = .ok (.moveXR2 .b (.ind ⟨.postDec, 5⟩)) ∧
    decode 0b000010001011000000000000 0x000040 = .ok (.moveRY2 .a (.abs 0x0040)) ∧
    decode 0b111011010100110100000000 0 = .ok (.moveXY .toMem .b .addN 5 .toReg .y1 .dec 2) := by decide

/-- The words of 45_parallel_moves.md R385 and R386. -/
theorem test_decode_words_of_rule_385_1 :
    decode 0x60CA64 0 = .ok (.subWord .x1 .a (.xEa (.toReg (.mem (.ind ⟨.postAddN, 2⟩))) (.r 0))) ∧
    decode 0x6FED1E 0 = .ok (.subl .b (.yEa (.toReg (.mem (.ind ⟨.indexed, 5⟩))) (.r 7))) ∧
    decode 0x7D7D06 0 = .ok (.subr .a (.yEa (.toMem (.ind ⟨.preDec, 5⟩)) (.n 5))) ∧
    decode 0x57F403 0x345678 = .ok (.tst .a (.xEa (.toReg (.imm 0x345678)) (.d .b))) ∧
    decode 0x72F437 0x00013A = .ok (.rol .a (.xEa (.toReg (.imm 0x00013A)) (.n 2))) ∧
    decode 0x62F42F 0x001234 = .ok (.ror .b (.xEa (.toReg (.imm 0x001234)) (.r 2))) ∧
    decode 0x17B411 0x123456 = .ok (.rnd .a (.xr .x1 (.toReg (.imm 0x123456)) .b .y1)) ∧
    decode 0x14EC09 0 = .ok (.tfrAcc .b (.ry .a .x1 .y0 (.toReg (.mem (.ind ⟨.indexed, 4⟩))))) ∧
    decode 0x428000 0 = .ok (.moveLAa .toReg 0 .x) ∧
    decode 0x488100 0 = .ok (.moveLAa .toReg 1 .a) ∧
    decode 0x438200 0 = .ok (.moveLAa .toReg 2 .y) ∧
    decode 0x498324 0 = .ok (.subLong .x .a (.lAa .toReg 3 .b)) ∧
    decode 0x40043D 0 = .ok (.sbc .y .b (.lAa .toMem 4 .a10)) ∧
    decode 0x410500 0 = .ok (.moveLAa .toMem 5 .b10) ∧
    decode 0xB41687 0 = .ok (.macr true .x0x0 .a (.xy .toMem .x1 .dec 6 .toMem .y0 .inc 0)) ∧
    decode 0xF09813 0 = .ok (.clr .a (.xy .toReg .x0 .inc 0 .toReg .y0 .inc 0)) := by decide

/-- The words of 45_parallel_moves.md R385 and R386. -/
theorem test_decode_words_of_rule_385_2 :
    decode 0xF098D2 0 = .ok (.mac false .y0x0 .a (.xy .toReg .x0 .inc 0 .toReg .y0 .inc 0)) ∧
    decode 0x2050D3 0 = .ok (.macr false .y0x0 .a (.upd .dec 0)) ∧
    decode 0x200011 0 = .ok (.rnd .a .none) ∧
    decode 0x205083 0 = .ok (.macr false .x0x0 .a (.upd .dec 0)) := by decide
/-! ### The well-formedness checks refuse -/

theorem test_wf_refuses_a_move_into_its_own_updated_pointer :
    (Instr.moveXEa (.toReg (.mem (.ind ⟨.postInc, 3⟩))) (.r 3)).check = some .duplicateDestination ∧
    (Instr.moveYEa (.toReg (.mem (.ind ⟨.postAddN, 2⟩))) (.n 2)).check = some .duplicateDestination ∧
    (Instr.movemEa .toReg (.ind ⟨.preDec, 1⟩) (.r 1)).check = some .duplicateDestination ∧
    (Instr.moveXEa (.toReg (.mem (.ind ⟨.indexed, 3⟩))) (.r 3)).wf ∧
    (Instr.moveXEa (.toMem (.ind ⟨.postInc, 3⟩)) (.r 3)).wf := by decide

theorem test_wf_refuses_one_register_twice_in_a_double_move :
    (Instr.moveXY .toReg .a .inc 0 .toReg .a .inc 0).check = some .duplicateDestination ∧
    (Instr.moveXY .toReg .a .inc 0 .toMem .a .inc 0).wf := by decide

theorem test_wf_refuses_a_move_into_the_result_accumulator :
    (Instr.clr .a (.imm (.d .a1) 1)).check = some .duplicateDestination ∧
    (Instr.mac false .x0y1 .b (.lAa .toReg 0 .ab)).check = some .duplicateDestination ∧
    (Instr.addWord .x0 .b (.xr2 .b (.ind ⟨.postInc, 0⟩))).check = some .duplicateDestination ∧
    (Instr.tst .a (.imm (.d .a) 1)).wf := by decide

theorem test_wf_refuses_bit_numbers_from_24 :
    (Instr.bsetReg (.r 0) 24).check = some .reservedBitNumber ∧
    (Instr.jclrAa .x 0 31 0).check = some .reservedBitNumber ∧ (Instr.jclrAa .x 0 23 0).wf := by decide

theorem test_wf_refuses_movec_ssh_to_ssh :
    (Instr.movecReg .toReg (.c .ssh) (.c .ssh)).check = some .movecSshSsh := by decide

theorem test_wf_refuses_do_from_ssh : (Instr.doReg (.c .ssh) 0).check = some .doFromSsh := by decide

/-- One word under each name of the decoder (30_encoding.md R210, 95_test_vectors.md 2.10). -/
theorem test_decode_refuses_by_name :
    decode 0x000001 0 = .error .reservedEncoding ∧ decode 0x0000BB 0 = .error .reservedImmDest ∧
    decode 0x0A1038 0 = .error .reservedBitNumber ∧ decode 0x067020 0 = .error .reservedMode ∧
    decode 0x06C020 0 = .error .reservedRegister ∧ decode 0x200008 0 = .error .reservedAluOp ∧
    decode 0x200100 0 = .error .reservedMove ∧ decode 0x63DB00 0 = .error .duplicateDestination ∧
    decode 0x04FCBC 0 = .error .movecSshSsh ∧ decode 0x06FC00 0 = .error .doFromSsh := by decide

/-! ### One-step results from 95_test_vectors.md -/

/-- The outcome of `exec` satisfies a check. -/
def gives (i : Instr) (s : State) (p : State → Bool) : Bool :=
  match exec i s with
  | .next t => p t
  | _ => false

/-- The outcome of `step` satisfies a check. -/
def stepGives (s : State) (p : State → Bool) : Bool :=
  match step s with
  | .next t => p t
  | _ => false

/-- The outcome is this fault. -/
def faults (o : Result) (f : Fault) : Bool :=
  match o with
  | .fault g => g == f
  | _ => false

/-- An accumulator from its three parts. -/
def parts (e : BitVec 8) (m l : Word) : AccVal := e ++ m ++ l

/-- The reset state with A, B, X0 and the CCR given. -/
def withData (a b : AccVal) (x0 : Word) (ccr : BitVec 8) : State :=
  { State.reset with
    dalu := { State.reset.dalu with a := a, b := b, x0 := x0 }
    ctl := { State.reset.ctl with sr := 0x03#8 ++ ccr } }

/-- The accumulator A and the CCR after one instruction. -/
def aAfter (i : Instr) (s : State) (a : AccVal) (ccr : BitVec 8) : Bool :=
  gives i s fun t => t.dalu.a == a && t.ctl.sr.extractLsb' 0 8 == ccr

theorem test_sub_borrows : aAfter (.subAcc .a .none) (withData 0 1 0 0) (parts 0xFF 0xFFFFFF 0xFFFFFF) 0x19 := by
  decide
theorem test_sub_overflows :
    aAfter (.subWord .x0 .a .none) (withData (parts 0x80 0 0) 0 1 0) (parts 0x7F 0xFFFFFF 0) 0x72 := by decide
theorem test_sbc_borrow_in : aAfter (.sbc .x .a .none) (withData 0 0 0 1) (parts 0xFF 0xFFFFFF 0xFFFFFF) 0x19 := by
  decide
theorem test_subl_shift_overflows :
    aAfter (.subl .a .none) (withData (parts 0x80 0 0) 0 0 0) 0 0x56 := by decide
theorem test_subr_halves_first : aAfter (.subr .a .none) (withData 1 0 0 0) 0 0x14 := by decide
theorem test_add_carries :
    aAfter (.addAcc .a .none) (withData (parts 0xFF 0xFFFFFF 0xFFFFFF) 1 0 0) 0 0x15 := by decide
theorem test_adc : aAfter (.adc .x .a .none) (withData 1 0 2 1) 4 0x10 := by decide
theorem test_addl :
    aAfter (.addl .a .none) (withData (parts 0 0x100000 0) (parts 0 0x080000 0) 0 0) (parts 0 0x280000 0) 0x10 := by
  decide
theorem test_addr :
    aAfter (.addr .a .none) (withData (parts 0 0x100000 1) (parts 0 0x080000 0) 0 0) (parts 0 0x100000 0) 0x10 := by
  decide
theorem test_abs_of_the_least :
    aAfter (.absAcc .a .none) (withData (parts 0x80 0 0) 0 0 0) (parts 0x80 0 0) 0x7A := by decide
theorem test_neg_of_zero : aAfter (.neg .a .none) (withData 0 0 0 0) 0 0x14 := by decide
theorem test_asl :
    aAfter (.asl .a .none) (withData (parts 0xC0 0 1) 0 0 0) (parts 0x80 0 2) 0x39 := by decide
theorem test_asr_is_arithmetic :
    aAfter (.asr .a .none) (withData (parts 0x80 0 1) 0 0 0) (parts 0xC0 0 0) 0x39 := by decide
theorem test_reserved_scaling_mode :
    faults (exec (.clr .a .none) (State.reset.setSr 0x0C00)) .scalingReserved ∧
    gives (.rol .a .none) (State.reset.setSr 0x0C00) (fun _ => true) := by decide
theorem test_clr : aAfter (.clr .a .none) (withData (parts 0x12 3 4) 0 0 0) 0 0x14 := by decide
theorem test_tst : aAfter (.tst .a .none) (withData (parts 0xFF 0x800000 0) 0 0 1) (parts 0xFF 0x800000 0) 0x09 := by
  decide
theorem test_rnd_tie_goes_to_even :
    aAfter (.rnd .a .none) (withData (parts 0 1 0x800000) 0 0 0) (parts 0 2 0) 0x10 ∧
    aAfter (.rnd .a .none) (withData (parts 0 0 0x800000) 0 0 0) 0 0x14 := by decide
theorem test_cmp :
    aAfter (.cmpWord .x0 .a .none) (withData (parts 0xFF 0xC00000 0) 0 0x400000 0) (parts 0xFF 0xC00000 0) 0x08 := by
  decide
theorem test_cmpm :
    aAfter (.cmpmWord .x0 .a .none) (withData (parts 0xFF 0xC00000 0) 0 0x400000 0) (parts 0xFF 0xC00000 0) 0x14 := by
  decide
theorem test_and :
    aAfter (.andWord .x0 .a .none) (withData (parts 0x12 0xF0F0F0 5) 0 0x0FF00F 3) (parts 0x12 0x00F000 5) 0x01 := by
  decide
theorem test_eor_to_zero :
    aAfter (.eorWord .x0 .a .none) (withData (parts 0x12 0xF0F0F0 5) 0 0xF0F0F0 3) (parts 0x12 0 5) 0x05 := by decide
theorem test_not :
    aAfter (.notAcc .a .none) (withData (parts 0x12 0xF0F0F0 5) 0 0 3) (parts 0x12 0x0F0F0F 5) 0x01 := by decide
theorem test_lsr : aAfter (.lsr .a .none) (withData (parts 0x12 1 5) 0 0 0) (parts 0x12 0 5) 0x05 := by decide
theorem test_rol :
    aAfter (.rol .a .none) (withData (parts 0xFF 0x400000 0xFFFFFF) 0 0 1) (parts 0xFF 0x800001 0xFFFFFF) 0x08 := by
  decide
theorem test_ror : aAfter (.ror .a .none) (withData (parts 0 1 0) 0 0 1) (parts 0 0x800000 0) 0x09 := by decide
theorem test_mpy :
    aAfter (.mpy false .x0x0 .a .none) (withData 0 0 0x7FFFFF 0) (parts 0 0x7FFFFE 2) 0 := by decide
theorem test_mac_negated :
    aAfter (.mac true .x0x0 .a .none) (withData 0 0 0x400000 0) (parts 0xFF 0xE00000 0) 0x18 := by decide
theorem test_macr_rounds :
    aAfter (.macr false .x0x0 .a .none) (withData (parts 0 1 0x800000) 0 0 0) (parts 0 2 0) 0x10 := by decide
theorem test_tcc_word_is_a_fraction :
    aAfter (.tcc .ne (.word .x0) .a) (withData 0 0 0x800000 0) (parts 0xFF 0x800000 0) 0 := by decide
theorem test_div_step :
    aAfter (.divStep .x0 .a) (withData (parts 0 0x200000 0) 0 0x400000 0) 0 0x01 := by decide
theorem test_inc_wraps : aAfter (.inc .a) (withData (parts 0xFF 0xFFFFFF 0xFFFFFF) 0 0 0) 0 0x15 := by decide
theorem test_dec_wraps : aAfter (.dec .a) (withData 0 0 0 0) (parts 0xFF 0xFFFFFF 0xFFFFFF) 0x19 := by decide

/-- Rows of 95_test_vectors.md 2.2: no scaling, scale down, scale up. -/
theorem test_limiter_rows_24 :
    limit24 .off (parts 0 0x123456 0x789ABC) = 0x123456 ∧ limit24 .down (parts 0 0x123456 0x789ABC) = 0x091A2B ∧
    limit24 .up (parts 0 0x123456 0x789ABC) = 0x2468AC ∧ limit24 .down (parts 0xFF 0x7FFFFF 0xFFFFFF) = 0xBFFFFF ∧
    limit24 .off (parts 1 0x234567 0x89ABCD) = 0x7FFFFF ∧ limit24 .up (parts 0 0x800000 0) = 0x7FFFFF := by
  decide
theorem test_limiter_rows_48 :
    (limit48 .down (parts 0 0x800000 0) == 0x400000000000) = true ∧
    (limit48 .off (parts 0x80 0 0) == 0x800000000000) = true := by decide

/-- Rows of 95_test_vectors.md 2.11. -/
theorem test_agu_linear_and_reverse_rows :
    aguAdd 0xFFFF 1 false 0xFFFF = .ok 0 ∧ aguAdd 0x100 0x80 false 0 = .ok 0x180 ∧
    aguAdd 0x180 0x80 false 0 = .ok 0x140 := by decide +kernel
theorem test_agu_modulo_rows :
    aguAdd 0x13 1 false 0x13 = .ok 0 ∧ aguAdd 0 1 true 0x13 = .ok 0x13 ∧ aguAdd 0x43 1 false 3 = .ok 0x40 ∧
    aguAdd 0x24 4 false 4 = .ok 0x23 := ⟨rfl, rfl, rfl, rfl⟩
theorem test_agu_refused_rows :
    aguAdd 0x25 1 false 4 = .error .outsideModulo ∧ aguAdd 0x25 1 false 0x8000 = .error .modifierReserved := by
  decide

theorem test_move_a_is_limited :
    gives (.moveReg (.d .a) (.d .x1)) (withData (parts 1 0x234567 0) 0 0 0)
      (fun t => t.dalu.x1 == 0x7FFFFF && t.ccr.l) := by decide
theorem test_move_immediate_short :
    gives (.moveImm (.d .a) 0x80) State.reset (fun t => t.dalu.a == parts 0xFF 0x800000 0) ∧
    gives (.moveImm (.r 0) 0x80) State.reset (fun t => t.rReg 0 == 0x80) := by decide
theorem test_move_x_postincrement :
    gives (.moveXEa (.toMem (.ind ⟨.postInc, 2⟩)) (.d .x0)) ((withData 0 0 0x123456 0).setR 2 0x40)
      (fun t => t.peek .x 0x40 == 0x123456 && t.rReg 2 == 0x41) := by decide
theorem test_move_x0_to_a_beside_a_to_memory :
    gives (.moveXR2 .a (.ind ⟨.noUpdate, 0⟩)) (withData (parts 0 0x111111 0) 0 0x800000 0)
      (fun t => t.peek .x 0 == 0x111111 && t.dalu.a == parts 0xFF 0x800000 0) := by decide
theorem test_move_long_of_ab :
    gives (.moveLAa .toMem 4 .ab) (withData (parts 0 0x111111 0) (parts 1 0 0) 0 0)
      (fun t => t.peek .x 4 == 0x111111 && t.peek .y 4 == 0x7FFFFF) := by decide
theorem test_lua_keeps_its_source :
    gives (.lua .addN 0 (.r 1)) ((State.reset.setR 0 0x100).setN 0 0x10)
      (fun t => t.rReg 1 == 0x110 && t.rReg 0 == 0x100) := by decide
theorem test_movep_to_bcr :
    gives (.movepEa .x 0b111110 .x (.toReg (.imm 0xAB1135))) State.reset
      (fun t => t.bcr == 0x1135 && t.ctl.pc == 2) := by decide
theorem test_movem_next_word_stops :
    faults (exec (.movemEa .toMem (.ind ⟨.noUpdate, 0⟩) (.d .x0)) (State.reset.setR 0 2)) .prefetchWrite := by
  decide
theorem test_bset_takes_the_old_bit :
    gives (.bsetAa .x 0x10 0) (State.reset.poke .x 0x10 2) (fun t => t.peek .x 0x10 == 3 && !t.ccr.c) := by decide
theorem test_bclr_on_sr :
    gives (.bclrReg (.c .sr) 8) State.reset (fun t => t.ctl.sr == 0x0201) := by decide
/-- A bit instruction on A sets L by the limiter and leaves S; a move of A sets both (10_state.md R66). -/
theorem test_btst_a_leaves_s :
    gives (.btstReg (.d .a) 0) (withData (parts 1 0x600000 0) 0 0 0) (fun t => t.ccr.l && !t.ccr.s) ∧
    gives (.moveReg (.d .a) (.d .x1)) (withData (parts 1 0x200000 0) 0 0 0) (fun t => t.ccr.l && t.ccr.s) := by decide
theorem test_btst_a2 : gives (.btstReg (.d .a2) 7) (withData (parts 0x80 0 0) 0 0 0) (fun t => t.ccr.c) := by decide
/-- The SR on the stack is SR before the instruction; the limiter's L and S reach SR alone (00_scope.md R17). -/
theorem test_jsset_pushes_sr_as_it_was :
    gives (.jssetReg (.d .a) 0 0x50) (withData (parts 1 0 0) 0 0 0)
      (fun t => t.ssTop.1 == (2, 0x300) && t.ctl.sr == 0x340) := by decide
theorem test_do_pushes_sr_as_it_was :
    gives (.doReg (.d .a) 9) (withData (parts 1 0x200000 0) 0 0 0)
      (fun t => t.ssTop.1 == (2, 0x300) && t.ctl.sr == 0x83C0 && t.ctl.lc == 0xFFFF) := by decide
theorem test_stack_error_keeps_six_bits :
    (State.reset.writeCtl .sp 0x1F).incSp.ctl.sp = 0x20 ∧ (State.reset.writeCtl .sp 0x10).decSp.ctl.sp = 0x0F := by
  decide
theorem test_jcc_indexed :
    gives (.jccEa .lc (.ind ⟨.indexed, 2⟩)) ((State.reset.setR 2 0x1000).setN 2 0x37)
      (fun t => t.ctl.pc == 0x1037) := by decide
theorem test_jsr_on_a_full_stack :
    gives (.jsrShort 0x50) (State.reset.writeCtl .sp 15)
      (fun t => t.ctl.pc == 0x50 && t.ctl.sp == 16 && t.isPending .stackError) := by decide
theorem test_rts_on_an_empty_stack :
    gives .rts State.reset (fun t => t.ctl.sp == 0x3F && t.isPending .stackError) := by decide
theorem test_rti_restores_sr :
    gives .rti (State.reset.push 0x101 0x113)
      (fun t => t.ctl.pc == 0x101 && t.ctl.sp == 0 && t.ctl.sr == 0x113) := by decide
theorem test_do_pushes_twice :
    gives (.doImm 3 0x104) (State.reset.setPc 0x100)
      (fun t => t.ctl.stack[0] == (0, 0) && t.ctl.stack[1] == (0x102, 0x300) && t.ctl.sp == 2 &&
        t.ctl.la == 0x104 && t.ctl.lc == 3 && t.ctl.sr == 0x8300 && t.ctl.pc == 0x102) := by decide
theorem test_andi_mr : gives (.andi 0xFC .mr) State.reset (fun t => t.ctl.sr == 0) := by decide
theorem test_reset_instruction :
    gives .reset ({ State.reset with ipr := 0xC03, bcr := 0x1135 }.pend .irqa)
      (fun t => t.ipr == 0 && t.bcr == 0x1135 && !t.isPending .irqa && t.outbox == [.peripheralReset]) := by decide

/-- An instruction placed where the step fetches. -/
def at' (s : State) (w : Nat) : State := s.withFetchWord 24 w

theorem test_step_rep_holds_the_next_word :
    stepGives ((at' State.reset 0x0603A0).poke .p 1 0x000008)
      (fun t => t.rep.repeating && t.rep.word == 0x000008 && t.ctl.lc == 3 && t.ctl.pc == 1) := by decide
theorem test_step_services_irqa :
    stepGives { (State.reset.setSr 0x100) with ipr := 2, inbox := [[.irqaLow]] }
      (fun t => t.vec == some { addr := 8, slot := 0, level := 1 } && t.proc == .exception && t.ctl.pc == 0) := by
  decide
theorem test_step_long_interrupt :
    stepGives { ((State.reset.setSr 0x100).setPc 0x200 |>.poke .p 8 0x0D0070 |>.poke .p 9 0) with
        vec := some { addr := 8, slot := 0, level := 1 }, proc := .exception }
      (fun t => t.ctl.stack[0] == (0x200, 0x100) && t.ctl.sr == 0x200 && t.ctl.pc == 0x70 && t.vec == none) := by
  decide
/-- R506: the jump that forms a long interrupt starts with T = 1 and is traced; the handler runs with T = 0. -/
theorem test_step_long_interrupt_traced :
    stepGives { (State.reset.setSr 0x2300).poke .p 8 0x0D0070 with
        vec := some { addr := 8, slot := 0, level := 1 }, proc := .exception }
      (fun t => t.isPending .trace && !t.tr && t.ctl.pc == 0x70) := by decide
theorem test_step_trace :
    stepGives (at' (State.reset.setSr 0x2300) 0) (fun t => t.isPending .trace && t.ctl.pc == 1) := by decide
theorem test_step_agu_delay :
    stepGives (at' State.reset 0x302000) (fun t => t.aguWritten == some (.r 0)) ∧
    faults (step { (at' State.reset 0x44D800) with aguWritten := some (.r 0) }) (.restricted .aguDelay) := by
  decide
/-- 70_reset_and_hazards.md R615, the timing example of RTI with an internal target. -/
theorem test_step_counts_cycles : stepGives (at' (State.reset.push 0x100 0x300) 4) (fun t => t.clock == 4) := by decide

/-! ### Witnesses: a state and operands that meet the hypotheses of each statement -/

/-- A state in which NOP comes next. -/
def nopNext : State := at' State.reset 0

/-- For DecodeOfEncodeIsTheInstruction. -/
theorem witness_DecodeOfEncode :
    (Instr.nop).wf ∧ (Instr.bsetEa .y (.abs 0xFFFF) 23).wf ∧
    (Instr.moveXY .toReg .x0 .inc 7 .toMem .b .dec 3).wf := by decide

/-- For StepRunsTheDecodedInstruction, StepAddsMarksAndTrace and PcMovesPastTheWords, with the next one. -/
theorem witness_StepRuns_next :
    nopNext.ready = true ∧ decode (nopNext.peek .p nopNext.ctl.pc) (nopNext.peek .p (nopNext.ctl.pc + 1)) = .ok .nop ∧
    hazard .nop nopNext = none ∧ nopNext.lf = false ∧ nopNext.vec = none ∧ changesFlow .nop = false := by decide
theorem witness_exec_next : exec .nop nopNext = .next (nopNext.advance 1) := rfl
theorem witness_StepRuns_hazard :
    ({ nopNext with aguWritten := some (.r 0) } : State).ready = true ∧
    hazard (.moveUpd .inc 0) { nopNext with aguWritten := some (.r 0) } = some .aguDelay := by decide
theorem witness_StepRuns_fault :
    exec (.moveUpd .inc 0) (nopNext.setM 0 0x8000) = .fault .modifierReserved := rfl
theorem witness_StepRuns_refused : exec (.macImm false 0 .a 0) nopNext = .refused .powerOfTwoMultiply := rfl
theorem witness_StepRuns_undecodable :
    (at' State.reset 1).ready = true ∧ decode 1 0 = .error .reservedEncoding ∧
    (at' State.reset 1).peek .p 0 = 1 ∧ (at' State.reset 1).peek .p 1 = 0 := by decide

/-- For EveryStepKeepsTheStateLegal. -/
theorem witness_EveryStep : nopNext.legal = true ∧ stepGives nopNext (fun t => t.ctl.pc == 1) := by decide
/-- For ResetPinResetsTheCore: with no slot after it, and with one, in the stop state. -/
theorem witness_ResetPin :
    ({ State.reset with inbox := [[.resetPin]] } : State).inbox = .cons [.resetPin] [] ∧
    ({ State.reset with proc := .stop, inbox := [[.resetPin], [.nmi]] } : State).inbox =
      .cons [.resetPin] [[.nmi]] := by decide

/-- For MemoryFrame, RegisterFrame, StatusFrame and HiddenStateFrame. -/
theorem witness_frames :
    (Space.x, (0x11 : Addr)) ∉ State.reset.stored (.bsetAa .x 0x10 0) ∧
    (Space.x, (0x10 : Addr)) ∈ State.reset.stored (.bsetAa .x 0x10 0) ∧
    (Space.x, bcrAddr) ∉ State.reset.stored (.bsetPp .x 0x3F 0) ∧
    (Space.x, iprAddr) ∈ State.reset.stored (.bsetPp .x 0x3F 0) ∧
    Reg.c .sp ∉ changeSet (.bsetAa .x 0x10 0) ∧ Reg.c .sr ∈ changeSet (.bsetAa .x 0x10 0) ∧
    (statusSet (.bsetAa .x 0x10 0) State.reset).getLsbD 1 = false ∧ State.reset.srLegal = true ∧
    isRep (.bsetAa .x 0x10 0) = false ∧ State.reset.vec = none ∧
    gives (.bsetAa .x 0x10 0) State.reset (fun _ => true) = true := by decide

/-- For MovesCompleteAndChangeOnlySAndL, and the statements about data-ALU instructions, with and without a parallel
move. -/
theorem witness_data_alu :
    State.reset.srLegal = true ∧ State.reset.scale = .ok .off ∧
    State.reset.runMove (.upd .inc 0) = .ok (State.reset.setR 0 1) ∧ State.reset.stepped .postInc 0 = .ok 1 ∧
    (Ind.mk .postInc 0) ∈ moveInds (.upd .inc 0) ∧ State.reset.acc Acc.a.other = State.reset.acc .b ∧
    BitVec.ofNat 56 (State.reset.acc .a).toInt.natAbs = 0 := by decide
/-- The same in the two other scaling modes. -/
theorem witness_data_alu_scaled :
    ((State.reset.setSr 0x0400).srLegal = true ∧ (State.reset.setSr 0x0400).scale = .ok .down ∧
      (State.reset.setSr 0x0400).runMove .none = .ok (State.reset.setSr 0x0400)) ∧
    ((State.reset.setSr 0x0800).srLegal = true ∧ (State.reset.setSr 0x0800).scale = .ok .up ∧
      (State.reset.setSr 0x0800).runMove .none = .ok (State.reset.setSr 0x0800)) := by decide

/-- For MovesCompleteAndChangeOnlySAndL: the default definition of S. -/
theorem witness_s_bit_default : State.reset.plat.sBitFn = .family := by decide
/-- For ReservedScalingModeStops. -/
theorem witness_ReservedScaling :
    (State.reset.setSr 0x0C00).srBit 11 = true ∧ (State.reset.setSr 0x0C00).srBit 10 = true ∧
    needsScale (.clr .a .none) = true ∧ needsScale (.divStep .x0 .b) = true ∧ LOp.ba ∈ [LOp.a, .b, .ab, .ba] := by
  decide
/-- For ModeBitsFollowTheNotes and ExtensionWordsBelongToTheMove: with an extension word and without. -/
theorem witness_encoding_notes :
    decMode 5 = some .indexed ∧ AguMode.indexed ∈ [AguMode.postAddN, .postInc, .indexed, .preDec] ∧
    AguMode.postDec ∈ [AguMode.postSubN, .postDec] ∧
    (Instr.clr .a (.xEa (.toReg (.imm 5)) (.d .x0))).parallel? =
      some (some .a, .xEa (.toReg (.imm 5)) (.d .x0)) ∧ encXfer (.toReg (.imm 5)) = 0b110100 ∧
    (Instr.moveXY .toReg .x0 .inc 0 .toReg .y0 .inc 0).parallel? =
      some (none, .xy .toReg .x0 .inc 0 .toReg .y0 .inc 0) := by decide

/-- For AddressArithmeticFollowsTheModifier: the least and greatest of each range, and each case of the offset. -/
theorem witness_AddressArithmetic :
    (0x8000 : Nat) ≤ (0x8000 : Addr).toNat ∧ (0xFFFE : Addr).toNat ≤ 0xFFFE ∧
    (1 ≤ (1 : Addr).toNat ∧ (1 : Addr).toNat + 1 ≤ 2 ^ 1 ∧ 2 ^ 1 < 2 * ((1 : Addr).toNat + 1)) ∧
    ((0x7FFF : Addr).toNat < 0x8000 ∧ (0x7FFF : Addr).toNat + 1 ≤ 2 ^ 15 ∧
      2 ^ 15 < 2 * ((0x7FFF : Addr).toNat + 1)) ∧
    ((4 : Addr).toNat + 1 ≤ 2 ^ 3 ∧ 2 ^ 3 < 2 * ((4 : Addr).toNat + 1)) ∧
    ((4 : Addr).toNat < (5 : Addr).toNat % 2 ^ 3) ∧ (4 : Addr).toNat % 2 ^ 3 ≤ (4 : Addr).toNat ∧
    (5 : Addr).toInt.natAbs ≤ (4 : Addr).toNat + 1 ∧
    ((4 : Addr).toNat + 1 < (8 : Addr).toInt.natAbs ∧ (8 : Addr).toInt.natAbs % 2 ^ 3 = 0) ∧
    ((4 : Addr).toNat + 1 < (6 : Addr).toInt.natAbs ∧ (6 : Addr).toInt.natAbs % 2 ^ 3 ≠ 0) := by decide
/-- For AddressingModesUseAndUpdateRn. -/
theorem witness_AddressingModes :
    aguAdd (State.reset.rReg 0) (State.reset.nReg 0) true (State.reset.mReg 0) = .ok 0 ∧
    aguAdd (State.reset.rReg 7) 1 true (State.reset.mReg 7) = .ok 0xFFFF ∧
    aguAdd (State.reset.rReg 7) 1 false (State.reset.mReg 7) = .ok 1 := by decide

/-- Reset with SP at a given value. -/
def withSp (k : BitVec 6) : State := State.reset.writeCtl .sp (k.setWidth 24)

/-- For the statements about the stack, and for LongInterruptsSaveMaskAndReturn. -/
theorem witness_stack_pointers :
    (withSp 0).ssLoc = 0 ∧ (withSp 0).onStack = false ∧ (withSp 1).onStack = true ∧ (withSp 15).onStack = true ∧
    (withSp 15).ssLoc = 15 ∧ (withSp 14).ssLoc.toNat < (withSp 14).plat.stackDepth.val ∧
    (0 : Fin 15).val + 1 ≠ ((withSp 15).ssLoc + 1).toNat ∧ (14 : Fin 15).val + 1 ≠ ((withSp 0).ssLoc + 1).toNat ∧
    2 ≤ (withSp 2).ssLoc.toNat ∧ (withSp 2).onStack = true ∧ (withSp 31).ssLoc = 15 ∧
    (withSp 14).srLegal = true := by decide

/-- A part whose stack has four locations: a push into the fourth is pulled, the fifth is no storage. -/
def shallow (k : BitVec 6) : State :=
  { withSp k with plat := { Platform.default with stackDepth := 4 } }
theorem test_stack_depth :
    ((shallow 3).push 7 9).pull.1 = (7, 9) ∧ ((shallow 4).push 7 9).ctl.stack = (shallow 4).ctl.stack ∧
    ((shallow 4).push 7 9).onStack = false := by decide
/-- For RegistersAreReadAndWrittenByWidth, with the one before and witness_data_alu. -/
theorem witness_RegisterWrites : Reg.d .a1 ∉ writeSet (.d .a0) ∧ Reg.c .ssl ∉ writeSet (.c .la) := by decide
/-- For StoresAreReadBack. -/
theorem witness_Stores :
    isIo 0xFFBF = false ∧ isIo 0xFFC0 = true ∧ isIo 0xFFFD = true ∧
    (DSpace.y, bcrAddr) ≠ (DSpace.x, bcrAddr) ∧ (DSpace.x, (0xFFC0 : Addr)) ≠ (.x, iprAddr) := by decide

/-- For TransfersCopyUnlimited, with witness_data_alu. -/
theorem witness_Transfers : condHolds .cc State.reset.ccr = true ∧ condHolds .cs State.reset.ccr = false := by decide
/-- For NormalizeStep, with witness_data_alu. -/
theorem witness_Normalize :
    ((withData 0 0 0 0x10).ccr.e = false ∧ (withData 0 0 0 0x10).ccr.u = true ∧ (withData 0 0 0 0x10).ccr.z = false) ∧
    (withData 0 0 0 0x20).ccr.e = true ∧ ((withData 0 0 0 0x14).ccr.u = true ∧ (withData 0 0 0 0x14).ccr.z = true) ∧
    ((withData 0 0 0 0).ccr.e = false ∧ (withData 0 0 0 0).ccr.u = false) := by decide

/-- For RegisterMoves, MemoryMoves, LongMoves, ControlRegisterMoves, BitInstructionsTouchOneBit, JumpsLoadThePc,
SubroutineJumpsPushTheReturn, RepStartsTheRepeat and DoAndEnddo: operands that can be read. -/
theorem witness_move_operands :
    State.reset.readReg (.d .x0) = .ok (0, State.reset) ∧ State.reset.readReg (.c .omr) = .ok (0, State.reset) ∧
    State.reset.readBitReg (.d .b2) = .ok (0, State.reset) ∧ (23 : BitVec 5).toNat < 24 ∧
    State.reset.srLegal = true ∧ State.reset.readBitReg (.c .sr) = .ok (0x300, State.reset) ∧
    State.reset.scale = .ok .off ∧ State.reset.vec = none := by decide
theorem witness_memory_operands :
    State.reset.resolve (.abs 0xFFFF) = .ok (0xFFFF, State.reset) ∧
    State.reset.resolve (.ind ⟨.preDec, 0⟩) = .ok (0xFFFF, State.reset.setR 0 0xFFFF) ∧
    State.reset.resolveInd ⟨.noUpdate, 3⟩ = .ok (0, State.reset) ∧ isIo 0 = false ∧
    State.reset.stepped .postDec 7 = .ok 0xFFFF := by decide
/-- For ClassOneAndDoubleMoves: the second register in either bank. -/
theorem witness_ClassOne :
    (State.reset.limited .off (State.reset.acc .a)).moveEa .x (.toReg (.imm 5)) (.d .x1) =
      .ok ((State.reset.limited .off (State.reset.acc .a)).writeD .x1 5) ∧
    (4 : BitVec 3).toNat = (if (0 : BitVec 3).toNat < 4 then 4 else 0) + (0 : BitVec 2).toNat ∧
    (3 : BitVec 3).toNat = (if (7 : BitVec 3).toNat < 4 then 4 else 0) + (3 : BitVec 2).toNat ∧
    State.reset.readD .x0 = .ok (0, State.reset) := by decide
/-- For ClassTwoMoves. -/
theorem witness_ClassTwo :
    (State.reset.limited .off (State.reset.acc .a)).resolve (.abs 7) =
      .ok (7, State.reset.limited .off (State.reset.acc .a)) := by decide
/-- For ProgramMemoryAndPeripheralMoves. -/
theorem witness_ProgramMemory :
    State.reset.plain = true ∧ State.reset.ctl.pc + BitVec.ofNat 16 2 + 1 = 3 ∧
    (3 : Addr) ≠ State.reset.ctl.pc + BitVec.ofNat 16 1 ∧ (3 : Addr) ≠ State.reset.ctl.pc + BitVec.ofNat 16 1 + 1 ∧
    (2 : Addr) ∈ State.reset.prefetched 1 ∧ (3 : Addr) ∉ State.reset.prefetched 1 := by decide

/-- For JumpsLoadThePc and SubroutineJumpsPushTheReturn, with witness_Transfers and witness_memory_operands. -/
theorem witness_jumps :
    (State.reset.setSr 0x8000).lf = true ∧ (0 : BitVec 12).setWidth 16 = (State.reset.setSr 0x8000).ctl.la ∧
    State.reset.lf = false := by decide

/-- X:5 holds a word with bit 23 set and bit 0 clear. -/
def bitState : State := State.reset.poke .x 5 0x800000

/-- For BitJumpsTestOneBit: a bit that is 1 and a bit that is 0. -/
theorem witness_BitJumps_one :
    testedBit .jclrPp .jclrEa .jclrAa .jclrReg 0x40 (.jclrAa .x 5 23 0x40) true bitState bitState :=
  ⟨23, .inr (.inl ⟨.x, 5, rfl, by decide, rfl⟩)⟩
theorem witness_BitJumps_zero :
    testedBit .jssetPp .jssetEa .jssetAa .jssetReg 0x40 (.jssetEa .x ⟨.noUpdate, 1⟩ 0 0x40) false
      (bitState.setR 1 5) (bitState.setR 1 5) :=
  ⟨0, .inr (.inr (.inl ⟨.x, ⟨.noUpdate, 1⟩, 5, bitState.setR 1 5, rfl, rfl, by decide, by decide⟩))⟩
theorem witness_BitJumps_register :
    testedBit .jsetPp .jsetEa .jsetAa .jsetReg 0 (.jsetReg (.c .sr) 8 0) true bitState bitState :=
  ⟨8, .inr (.inr (.inr ⟨.c .sr, 0x300, rfl, rfl, by decide⟩))⟩

/-- INC A held by a REP that has `lc` passes to go. -/
def repeatingInc (lc : Addr) : State :=
  { State.reset with
    rep := { temp := 9, repeating := true, word := 0x000008 }
    ctl := { State.reset.ctl with lc := lc } }

/-- For RepPassesCountDown: the last pass and another. -/
theorem witness_RepPasses :
    (repeatingInc 1).proc = .normal ∧ (repeatingInc 1).inbox = [] ∧ (repeatingInc 1).vec = none ∧
    (repeatingInc 1).lf = false ∧ decode (repeatingInc 1).rep.word 0 = .ok (.inc .a) ∧ badRepeat (.inc .a) = false ∧
    writesLc (.inc .a) = false ∧ hazard (.inc .a) (repeatingInc 1) = none ∧
    gives (.inc .a) (repeatingInc 1) (fun t => t.ctl.lc == 1) ∧
    gives (.inc .a) (repeatingInc 0) (fun t => t.ctl.lc != 1) := by decide
theorem witness_RepPasses_stops :
    decode 1 0 = .error .reservedEncoding ∧ decode 6 0 = .ok .swi ∧ badRepeat .swi = true ∧
    decode 0x0505BF 0 = .ok (.movecImm 5 (.c .lc)) ∧ badRepeat (.movecImm 5 (.c .lc)) = false ∧
    writesLc (.movecImm 5 (.c .lc)) = true := by decide

/-- NOP at the end of a DO loop with `lc` passes to go. -/
def loopNop (lc : Addr) : State :=
  at' { State.reset with ctl := { State.reset.ctl with sr := 0x8300, sp := 2, la := 0, lc := lc } } 0

/-- For StepAddsMarksAndTrace: inside a loop, before LA. -/
theorem witness_StepAdds_in_loop :
    (at' ((loopNop 1).setPc 0xFFF0) 0).ready = true ∧ (at' ((loopNop 1).setPc 0xFFF0) 0).lf = true ∧
    (0xFFF0 : Addr) + BitVec.ofNat 16 (Instr.nop.words - 1) ≠ (loopNop 1).ctl.la ∧
    hazard .nop ((loopNop 1).setPc 0xFFF0) = none ∧
    stepGives (at' ((loopNop 1).setPc 0xFFF0) 0) (fun t => t.ctl.pc == 0xFFF1 && t.ctl.lc == 1) := by decide
/-- 47_nonparallel_encoding_only.md R462: leaving a loop restores LF alone of SR. -/
theorem test_loop_end_restores_lf_alone :
    stepGives { loopNop 1 with ctl := { (loopNop 1).ctl with stack := (loopNop 1).ctl.stack.set 1 (0, 0x0CFF) } }
      (fun t => t.ctl.sr == 0x0300 && t.ctl.sp == 0 && t.ctl.pc == 1) := by decide
/-- For LoopEndRepeatsOrLeaves: the last pass and another. -/
theorem witness_LoopEnd :
    (loopNop 1).srLegal = true ∧ (loopNop 1).ready = true ∧ (loopNop 1).tr = false ∧ (loopNop 1).lf = true ∧
    decode ((loopNop 1).peek .p (loopNop 1).ctl.pc) ((loopNop 1).peek .p ((loopNop 1).ctl.pc + 1)) = .ok .nop ∧
    hazard .nop (loopNop 1) = none ∧ isRep .nop = false ∧ changesFlow .nop = false ∧
    (loopNop 1).ctl.pc + BitVec.ofNat 16 (Instr.nop.words - 1) = (loopNop 1).ctl.la ∧
    gives .nop (loopNop 1) (fun t => t.lf && t.ctl.la == (loopNop 1).ctl.la && t.ctl.lc == 1 &&
      decide (2 ≤ t.ssLoc.toNat) && t.onStack) ∧
    gives .nop (loopNop 0) (fun t => t.lf && t.ctl.la == (loopNop 0).ctl.la && t.ctl.lc != 1 &&
      decide (2 ≤ t.ssLoc.toNat) && t.onStack) := by decide

/-- For ControlInstructions: without and with a debug port. -/
theorem witness_Debug :
    State.reset.plat.hasDebugPort = false ∧
    ({ State.reset with plat := { Platform.default with hasDebugPort := true } } : State).plat.hasDebugPort = true := by
  decide
/-- For ReturnsPullTheStack: the least and the greatest location; location 0 is in witness_stack_pointers. -/
theorem witness_Returns :
    (withSp 1).ssLoc.toNat = 0 + 1 ∧ (withSp 15).ssLoc.toNat = 14 + 1 ∧
    14 < (withSp 15).plat.stackDepth.val ∧ (withSp 1).ctl.stack[0] = (0, 0) ∧
    (withSp 15).ctl.stack[14] = (0, 0) := by decide

/-- Two sources pending, both of level 3, and IRQA of level 0. -/
def threePending : State := { ((State.reset.pend .swi).pend .nmi).pend .irqa with ipr := 1 }

/-- For ArbitrationServesTheHighestLevel. -/
theorem witness_Arbitration :
    threePending.arbitrate = some (.nmi, 3) ∧ State.reset.arbitrate = none ∧
    threePending.unmasked .swi = true ∧ threePending.levelOf .swi = some 3 ∧
    (threePending.setSr 0).unmasked .irqa = true := by decide
/-- For ArbitrationServesTheHighestLevel: every value of an IPR field. -/
theorem witness_ipr_fields :
    State.reset.ipr.toNat / 2 ^ 10 % 4 = 0 ∧ (0x9401 : BitVec 16).toNat / 2 ^ 0 % 4 = 0 + 1 ∧
    (0x9401 : BitVec 16).toNat / 2 ^ 14 % 4 = 1 + 1 ∧ (0x0018 : BitVec 16).toNat / 2 ^ 3 % 4 = 2 + 1 := by decide
/-- For the first part of ServiceAndFastInterrupts. -/
theorem witness_Service :
    threePending.inbox = [] ∧ threePending.vec = none ∧ threePending.rep.repeating = false ∧
    threePending.proc = .normal ∧
    ({ threePending with proc := .wait } : State).arbitrate = some (.nmi, 3) := by decide

/-- The second word of a vector at 8 is the given one. -/
def secondWord (w : Word) : State :=
  { (State.reset.poke .p 9 w).poke .p 0 0 with
    vec := some { addr := 8, slot := 1, level := 1 }, proc := .exception }

/-- For the second part of ServiceAndFastInterrupts. -/
theorem witness_FastInterrupt :
    (secondWord 8).proc = .exception ∧ (secondWord 8).inbox = [] ∧ (secondWord 8).rep.repeating = false ∧
    (secondWord 8).tr = false ∧
    decode ((secondWord 8).peek .p (8 + 1)) ((secondWord 8).peek .p (secondWord 8).ctl.pc) = .ok (.inc .a) ∧
    (Instr.inc .a).words = 1 ∧ isRep (.inc .a) = false ∧ changesFlow (.inc .a) = false ∧
    hazard (.inc .a) (secondWord 8) = none ∧ gives (.inc .a) (secondWord 8) (fun _ => true) := by decide
theorem witness_FastInterrupt_two_words :
    decode ((secondWord 0x060380).peek .p (8 + 1)) ((secondWord 0x060380).peek .p 0) = .ok (.doImm 3 0) ∧
    (Instr.doImm 3 0).words = 2 := by decide

/-- The two words of a vector at 8 are the given ones. -/
def firstWord (w x : Word) : State :=
  { (State.reset.poke .p 8 w).poke .p 9 x with
    vec := some { addr := 8, slot := 0, level := 1 }, proc := .exception }

/-- For the second part of ServiceAndFastInterrupts: the first word, of a one-word instruction, of a jump and of a
two-word instruction. -/
theorem witness_FastInterrupt_first_word :
    (firstWord 8 0).tr = false ∧ decode ((firstWord 8 0).peek .p 8) ((firstWord 8 0).peek .p (8 + 1)) = .ok (.inc .a) ∧
    hazard (.inc .a) (firstWord 8 0) = none ∧
    gives (.jmpShort 5) (firstWord 0x0C0005 0) (fun t => t.vec.isSome && changesFlow (.jmpShort 5)) ∧
    decode 0x0AF080 0x1234 = .ok (.jmpEa (.abs 0x1234)) ∧ (Instr.jmpEa (.abs 0x1234)).words = 2 := by decide
/-- 60_exceptions.md R508, R509: one word goes on to the second, two words end the fast interrupt, PC stays. -/
theorem test_first_vector_word :
    stepGives (firstWord 8 0) (fun t => t.vec == some ⟨8, 1, 1⟩ && t.ctl.pc == 0 && t.proc == .exception) ∧
    stepGives (firstWord 0x08F4BE 5) (fun t => t.vec == none && t.ctl.pc == 0 && t.bcr == 5 && t.proc == .normal) := by
  decide

/-- A processing state with one event in the next slot. -/
def event (p : ProcState) (e : HostEvent) : State := { State.reset with proc := p, inbox := [[e]], ipr := 0xFFFF }

/-- For HostEventsActInEachState. -/
theorem witness_HostEvents :
    (event .stop .irqaLow).inbox = .cons [.irqaLow] [] ∧
    ({ State.reset with proc := .wait } : State).arbitrate = none ∧ Source.nmi.maskable = false ∧
    Source.hostCmd.maskable = true ∧
    (({ event .wait (.irq .hostRx) with inbox := [] } : State).pend .hostRx).arbitrate = none ∧
    (({ event .wait .nmi with inbox := [] } : State).pend .nmi).arbitrate = some (.nmi, 3) ∧
    HostEvent.irqbLow ≠ .irqaLow := by decide
theorem witness_HostEvents_requests :
    requests .nmi .nmi ∧ requests .irqbLow .irqb ∧ requests .irqaLow .irqa ∧ requests (.irq .hostCmd) .hostCmd :=
  ⟨by simp [requests], by simp [requests], by simp [requests], by simp [requests, Source.maskable, Source.idx]⟩
/-- External P memory from $1000, and a write of another bus master into it. -/
def busState : State :=
  { event .stop (.busWrite .p 0x1234 5) with
    plat := { Platform.default with external := [⟨.p, 0x1000, 0xFFFF⟩] } }
/-- For HostEventsActInEachState: a bus master's write, outside and inside external memory, and slots of two events. -/
theorem witness_HostEvents_bus :
    busState.inbox = .cons [.busWrite .p 0x1234 5] [] ∧
    (∃ r ∈ busState.plat.external, r.space = .p ∧ r.first.toNat ≤ (0x1234 : Addr).toNat ∧
      (0x1234 : Addr).toNat ≤ r.last.toNat) ∧ State.reset.plat.external = [] ∧
    stepGives busState (fun t => t.peek .p 0x1234 == 5) := by decide
theorem witness_HostEvents_order :
    HostEvent.nmi ≠ .resetPin ∧
    stepGives { State.reset with inbox := [[.resetPin, .nmi]] } (fun t => t.proc == .reset && !t.isPending .nmi) ∧
    stepGives { State.reset with proc := .stop, inbox := [[.nmi, .busWrite .x 0 0]] } (fun t => t.proc == .stop) := by
  decide
/-- 41_program_control.md R266 and 00_scope.md R8: what becomes of an NMI and of debug_resume. -/
theorem test_nmi_while_stopped_waiting_and_held :
    stepGives (event .stop .nmi) (fun t => t.proc == .stop && !t.isPending .nmi) ∧
    stepGives (event .wait .nmi) (fun t => t.proc == .exception && t.vec == some ⟨0x1E, 0, 3⟩) ∧
    stepGives (event .reset .nmi) (fun t => t.proc == .normal && !t.isPending .nmi) := by decide
theorem test_debug_resume_in_a_vector :
    ({ event .debug .debugResume with vec := some ⟨8, 1, 0⟩ } : State).takeSlot.proc = .normal := by decide

/-- Reset after an instruction that wrote a control register. -/
def afterWrite (c : CtlReg) : State := { State.reset with prev := { Prev.none with wrote := some c } }

/-- For RestrictedSequencesStop. -/
theorem witness_Restricted_before :
    (afterWrite .la).lf = false ∧ (afterWrite .la).vec = none ∧ isDo (.doImm 1 0) = true ∧
    (afterWrite .la).prev.wrote = some .la ∧ CtlReg.la ∈ [CtlReg.la, .lc, .ssh, .ssl, .sp] ∧
    ({ Prev.none with fromSsh := true }).fromSsh = true ∧ ({ Prev.none with immMr := true }).immMr = true ∧
    ({ Prev.none with immCcr := true }).immCcr = true ∧
    (afterWrite .sp).prev.wrote = some .sp ∧
    prevOf (.movecReg .toMem (.d .x0) (.c .ssh)) = { Prev.none with fromSsh := true } := by decide
theorem witness_Restricted_forms :
    movesFrom (.movecReg .toMem (.d .x0) (.c .ssl)) (.c .ssl) ∧ bitJumpOn (.jsetReg (.c .ssh) 0 0) (.c .ssh) ∧
    movesTo (.movemAa .toReg 0 (.c .la)) (.c .la) ∧ bitWrites (.bsetReg (.c .sr) 0) (.c .sr) :=
  ⟨.inl ⟨.c .ssl, rfl, .inr (.inr ⟨.d .x0, rfl⟩)⟩, ⟨0, 0, .inr (.inl rfl)⟩,
    .inr (.inr (.inr (.inl ⟨0, rfl⟩))), ⟨0, .inr (.inr rfl)⟩⟩
theorem witness_Restricted_near_loop_end :
    (loopNop 1).lf = true ∧ (loopNop 1).vec = none ∧
    (((loopNop 1).setPc 0xFFFE).ctl.pc + 2 = ((loopNop 1).setPc 0xFFFE).ctl.la) ∧
    (loopNop 1).ctl.pc = (loopNop 1).ctl.la ∧ isJump (.jmpShort 0) = true ∧
    isBitJump (.jclrAa .x 0 0 0) = true ∧ isRep (.repImm 1) = true ∧
    hazard .rts ((loopNop 1).setPc 0xFFFE) = some .nearLoopEnd := by decide
/-- For the last clause of RestrictedSequencesStop: each check that stops an instruction. -/
theorem witness_Restricted_converse :
    hazard (.movecImm 0 (.c .sp)) (loopNop 1) = some .nearLoopEnd ∧ hazard .stop (loopNop 1) = some .atLoopEnd ∧
    hazard (.doImm 1 0) (afterWrite .la) = some .beforeDo ∧ hazard .enddo (afterWrite .sr) = some .beforeEnddo ∧
    hazard .rts (afterWrite .sp) = some .beforeReturn ∧ hazard (.jsetReg (.c .ssl) 0 0) (afterWrite .sp) = some .stackAccess ∧
    hazard (.moveUpd .inc 0) { State.reset with aguWritten := some (.r 0) } = some .aguDelay ∧
    hazard .enddo State.reset = none := by decide
/-- A fast interrupt: the fourth clause of RestrictedSequencesStop. -/
theorem witness_Restricted_fast :
    (secondWord 0).vec = some ⟨8, 1, 1⟩ ∧ isDo (.doImm 3 0) = true ∧ Instr.swi ∈ [Instr.enddo, .rti, .rts, .stop, .swi, .wait] ∧
    hazard (.andi 0 .ccr) (secondWord 0) = some .fastInterrupt := by decide
/-- A word of a vector at 8 counts by its own address (70_reset_and_hazards.md R567): with LA = 10 a BSET of SR in its
second word stops, wherever PC is. -/
def vectorInLoop : State :=
  { secondWord 0 with ctl := { State.reset.ctl with sr := 0x8300, la := 10, pc := 0x200 } }
/-- For the third clause of RestrictedSequencesStop, inside a vector. -/
theorem witness_Restricted_vector_near_loop_end :
    vectorInLoop.lf = true ∧ vectorInLoop.vec = some ⟨8, 1, 1⟩ ∧ (8 : Addr) + 1 + 1 = vectorInLoop.ctl.la ∧
    hazard (.bsetReg (.c .sr) 0) vectorInLoop = some .nearLoopEnd ∧ hazard .nop vectorInLoop = none := by decide
/-- For the first clause of AguDelayStops: a move marks, an address update and MOVEP do not. -/
theorem witness_AguDelay_marks :
    aguMoved (.moveReg (.d .x0) (.n 3)) State.reset = some (.n 3) ∧ aguMoved (.moveUpd .inc 3) State.reset = none ∧
    aguMoved (.movepReg .x 0 .toMem (.r 3)) State.reset = none ∧
    aguMoved (.tccR .cs .other .a 1 2) State.reset = none ∧
    aguMoved (.tccR .cc .other .a 1 2) State.reset = some (.r 2) := by decide
/-- For AguDelayStops. -/
theorem witness_AguDelay :
    (Ind.mk .postAddN 3) ∈ addrUses (.jmpEa (.ind ⟨.postAddN, 3⟩)) ∧
    addrUses (.jmpEa (.ind ⟨.noUpdate, 3⟩)) = [⟨.noUpdate, 3⟩] ∧
    ({ State.reset with aguWritten := some (.n 3) } : State).aguWritten = some (.n (Ind.mk .postAddN 3).reg) ∧
    ({ State.reset with aguWritten := some (.n 3) } : State).prev = Prev.none := by decide
end

section
/-! The step runs the instruction at PC: `ready`, the fetched words, and the outcomes of `issue`. -/

namespace Sys2Proof.Machine

/-! ### A ready step (60_exceptions.md R502) -/

/-- What `ready` says, field by field. -/
theorem State.ready_iff (s : State) :
    s.ready = true ↔ s.vec = none ∧ s.rep.repeating = false ∧ s.proc = .normal ∧ s.inbox = [] ∧
      s.arbitrate = none := by
  simp [State.ready, State.plain, and_assoc]

/-- A ready step runs the next instruction. -/
theorem step_of_ready {s : State} (h : s.ready = true) : step s = runNext s := by
  obtain ⟨hvec, hrep, hproc, hinbox, harb⟩ := s.ready_iff.1 h
  exact step_runNext hinbox hrep hvec hproc harb

/-- Outside a vector the fetch stream is at PC. -/
theorem fetched_of_no_vector {s : State} (h : s.vec = none) :
    s.fetched = (s.peek .p s.ctl.pc, s.peek .p (s.ctl.pc + 1)) := by
  simp [State.fetched, State.fetchAddrs, h]

/-- Outside a vector the step issues the instruction that the fetched words decode to. -/
theorem runNext_ok {s : State} {i : Instr} (hvec : s.vec = none)
    (hi : decode (s.peek .p s.ctl.pc) (s.peek .p (s.ctl.pc + 1)) = .ok i) : runNext s = issue i s := by
  simp only [runNext, fetched_of_no_vector hvec, hi, State.secondSlot, hvec, Bool.false_and, Bool.false_eq_true,
    if_false]

/-- Outside a vector the step refuses fetched words that are no instruction (30_encoding.md R210). -/
theorem runNext_error {s : State} {e : DecodeError} (hvec : s.vec = none)
    (he : decode (s.peek .p s.ctl.pc) (s.peek .p (s.ctl.pc + 1)) = .error e) :
    runNext s = .refused (.undecodable e) := by
  simp only [runNext, fetched_of_no_vector hvec, he]

/-- A restricted instruction is not run (70_reset_and_hazards.md R566). -/
theorem issue_restricted {i : Instr} {s : State} {r : Restriction} (h : hazard i s = some r) :
    issue i s = .fault (.restricted r) := by
  simp [issue, h]

/-- An instruction that completes is retired. -/
theorem issue_next {i : Instr} {s t : State} (h : hazard i s = none) (ht : exec i s = .next t) :
    issue i s = .next (retire i s t) := by
  simp [issue, h, ht]

/-- An instruction that faults faults the step. -/
theorem issue_fault {i : Instr} {s : State} {f : Fault} (h : hazard i s = none) (hf : exec i s = .fault f) :
    issue i s = .fault f := by
  simp [issue, h, hf]

/-- An instruction that is refused has the step refused. -/
theorem issue_refused {i : Instr} {s : State} {r : Refusal} (h : hazard i s = none)
    (hr : exec i s = .refused r) : issue i s = .refused r := by
  simp [issue, h, hr]

/-- Settles O5: the ready step is `runNext`, and `runNext` is `issue` of the decoded instruction or a refusal. -/
theorem stepRunsTheDecodedInstruction : Obligations.StepRunsTheDecodedInstruction := by
  refine ⟨fun s i hs hi => ?_, fun s e hs he => ?_⟩
  · have hstep : step s = issue i s := by
      rw [step_of_ready hs, runNext_ok (s.ready_iff.1 hs).1 hi]
    rw [hstep]
    exact ⟨fun _ => issue_restricted, fun hz => ⟨fun _ => issue_next hz, fun _ => issue_fault hz,
      fun _ => issue_refused hz⟩⟩
  · rw [step_of_ready hs, runNext_error (s.ready_iff.1 hs).1 he]

end Sys2Proof.Machine
end

section
/-! The events of the host in each processing state: the slot of a step, what one event does, and what the
processing state asks for. -/

namespace Sys2Proof.Machine

/-! ### One slot of events (00_scope.md R8) -/

/-- The state with the first slot taken off its inbox. -/
def State.withRest (rest : List (List HostEvent)) (s : State) : State := { s with inbox := rest }

@[simp] theorem State.withRest_proc (rest : List (List HostEvent)) (s : State) :
    (s.withRest rest).proc = s.proc := rfl

section Slots
variable {s : State} {rest : List (List HostEvent)}

/-- A step without a slot runs the state as it stands. -/
theorem step_inbox_nil (h : s.inbox = []) : step s = runState false s := by
  simp [step, State.resetLow, State.takeSlot, h]

/-- A step with an empty slot takes the slot. -/
theorem step_slot_nil (h : s.inbox = [] :: rest) : step s = runState false (s.withRest rest) := by
  simp [step, State.resetLow, State.takeSlot, State.withRest, h]

/-- The first event of a slot acts, and then the step is the one of the slot without it. -/
theorem step_slot_cons {e : HostEvent} {es : List HostEvent} (he : e ≠ .resetPin)
    (h : s.inbox = (e :: es) :: rest) :
    step s = step { (s.withRest rest).takeEvent e with inbox := es :: rest } := by
  have hinbox : ((s.withRest rest).takeEvent e).inbox = rest := (takeEvent_frame e _).1
  have hback (t : State) (ht : t.inbox = rest) : { t with inbox := rest } = t := by rw [← ht]
  simp only [State.withRest] at hinbox ⊢
  simp only [step, State.resetLow, State.takeSlot, h, List.foldl_cons, hback _ hinbox, List.contains_cons,
    beq_eq_false_iff_ne.2 he.symm, Bool.false_or]

/-- A slot of one event other than the RESET pin: the event acts, then the processing state. -/
theorem step_slot_single {e : HostEvent} (he : e ≠ .resetPin) (h : s.inbox = [e] :: rest) :
    step s = runState false ((s.withRest rest).takeEvent e) := by
  simp [step, State.resetLow, State.takeSlot, State.withRest, h, he.symm]

end Slots

/-! ### What the processing state asks for -/

section RunState
variable {held : Bool} {s : State}

/-- The stop state runs nothing (41_program_control.md R266). -/
theorem runState_stop (h : s.proc = .stop) : runState held s = .next s := by simp only [runState, h]

/-- The debug state runs nothing. -/
theorem runState_debug (h : s.proc = .debug) : runState held s = .next s := by simp only [runState, h]

/-- The normal and the exception state execute. -/
theorem runState_running (h : s.proc = .normal ∨ s.proc = .exception) : runState held s = runCore s := by
  rcases h with h | h <;> simp only [runState, h]

/-- The wait state goes on waiting while no request is unmasked (41_program_control.md R276). -/
theorem runState_wait_none (h : s.proc = .wait) (ha : s.arbitrate = none) : runState held s = .next s := by
  simp only [runState, h, ha]

/-- The wait state ends with the service of an unmasked request (41_program_control.md R276). -/
theorem runState_wait_some {q : Source} {l : BitVec 2} (h : s.proc = .wait) (ha : s.arbitrate = some (q, l)) :
    runState held s = .next (s.service q l) := by
  simp only [runState, h, ha]

/-- With the RESET pin low the reset state stays. -/
theorem runState_reset_held (h : s.proc = .reset) : runState true s = .next s := by
  simp only [runState, h, if_true]

/-- With the RESET pin released the reset state ends (70_reset_and_hazards.md R560). -/
theorem runState_reset_released (h : s.proc = .reset) : runState false s = .next s.release := by
  simp only [runState, h, Bool.false_eq_true, if_false]

end RunState

/-! ### What one event does -/

section Events
variable {e : HostEvent} {q : Source} {s : State}

/-- A request is not the RESET pin. -/
theorem requests_ne_resetPin (h : requests e q) : e ≠ .resetPin := by
  rintro rfl
  simp [requests] at h

/-- A request becomes pending, but in the stop and reset states (60_exceptions.md R504). -/
theorem takeEvent_request (h : requests e q) (hstop : s.proc ≠ .stop) (hreset : s.proc ≠ .reset) :
    s.takeEvent e = s.pend q := by
  cases hp : s.proc with
  | stop => exact absurd hp hstop
  | reset => exact absurd hp hreset
  | normal | exception | wait | debug =>
    rcases h with ⟨rfl, rfl⟩ | ⟨rfl, rfl⟩ | ⟨rfl, rfl⟩ | ⟨rfl, hq⟩
    case inr.inr.inr => simp only [State.takeEvent, hp, hq, if_true]
    all_goals simp only [State.takeEvent, hp]

/-- The reset state drops a request (assumption 8). -/
theorem takeEvent_request_reset (h : requests e q) (hp : s.proc = .reset) : s.takeEvent e = s := by
  rcases h with ⟨rfl, rfl⟩ | ⟨rfl, rfl⟩ | ⟨rfl, rfl⟩ | ⟨rfl, hq⟩ <;> simp only [State.takeEvent, hp]

/-- The stop state drops a request other than IRQA (41_program_control.md R266). -/
theorem takeEvent_request_stop (h : requests e q) (hirqa : e ≠ .irqaLow) (hp : s.proc = .stop) :
    s.takeEvent e = s := by
  rcases h with ⟨rfl, rfl⟩ | ⟨rfl, rfl⟩ | ⟨rfl, rfl⟩ | ⟨rfl, hq⟩
  · exact absurd rfl hirqa
  all_goals simp only [State.takeEvent, hp]

/-- IRQA ends the stop state (41_program_control.md R268). -/
theorem takeEvent_irqaLow_stop (hp : s.proc = .stop) : s.takeEvent .irqaLow = s.leaveStop := by
  simp only [State.takeEvent, hp]

/-- debug_resume ends the debug state. -/
theorem takeEvent_debugResume_debug (hp : s.proc = .debug) :
    s.takeEvent .debugResume = { s with proc := .normal } := by
  simp only [State.takeEvent, hp]

/-- debug_resume does nothing outside the debug state. -/
theorem takeEvent_debugResume (hp : s.proc ≠ .debug) : s.takeEvent .debugResume = s := by
  cases h : s.proc <;> simp_all [State.takeEvent]

/-- After the RESET pin, requests and debug_resume in the same slot are dropped. -/
theorem foldl_takeEvent_reset (es : List HostEvent) (hp : s.proc = .reset)
    (h : ∀ e ∈ es, (∃ q, requests e q) ∨ e = .debugResume) : es.foldl (fun t e => t.takeEvent e) s = s := by
  induction es with
  | nil => rfl
  | cons e es ih =>
    have hdrop : s.takeEvent e = s := by
      rcases h e (by simp) with ⟨q, hq⟩ | rfl
      · exact takeEvent_request_reset hq hp
      · exact takeEvent_debugResume (by simp [hp])
    rw [List.foldl_cons, hdrop]
    exact ih fun e' he' => h e' (by simp [he'])

end Events

/-! ### Leaving the stop state -/

/-- After the stop state the core's own requests stay, and the maskable ones are those that the platform answers with
(41_program_control.md R268, R269). -/
theorem isPending_leaveStop (q : Source) (s : State) :
    s.leaveStop.isPending q =
      if q.maskable then (Config.pendingAfterStop s.draws).getLsbD (q.idx.val - 5) else s.isPending q := by
  simp only [State.isPending, State.leaveStop, State.tell, State.clearMaskable, Source.maskable]
  by_cases h : 5 ≤ q.idx.val
  · simp [h]
  · simp [h]
    omega

/-- Leaving the stop state gives the normal state and keeps the registers and the memory. -/
theorem leaveStop_frame (s : State) :
    s.leaveStop.proc = .normal ∧ s.leaveStop.ctl = s.ctl ∧ s.leaveStop.mem = s.mem ∧ s.leaveStop.dalu = s.dalu ∧
      s.leaveStop.agu = s.agu := by
  rw [leaveStop_state]
  exact ⟨rfl, rfl, rfl, rfl, rfl⟩

/-! ### Another bus master (20_memory.md R145) -/

/-- Another bus master reaches a word of external memory outside the I/O range. -/
def State.busReaches (sp : Space) (a : Addr) (s : State) : Prop :=
  (∃ r ∈ s.plat.external, r.space = sp ∧ r.first.toNat ≤ a.toNat ∧ a.toNat ≤ r.last.toNat) ∧
    (sp = .p ∨ a.toNat < 0xFFC0)

/-- The guard of a bus master's write. -/
theorem busReaches_iff (sp : Space) (a : Addr) (s : State) :
    (s.plat.isExternal sp a && !(sp != .p && isIo a)) = true ↔ s.busReaches sp a := by
  have hio : (!(sp != .p && isIo a)) = true ↔ sp = .p ∨ a.toNat < 0xFFC0 := by
    by_cases hsp : sp = .p <;> simp [hsp, isIo]
  rw [Bool.and_eq_true, hio]
  simp [State.busReaches, Platform.isExternal, and_assoc]

variable {sp : Space} {a : Addr} {s : State}

/-- A bus master's write that reaches memory changes the one word, in every state. -/
theorem takeEvent_busWrite (v : Word) (h : s.busReaches sp a) : s.takeEvent (.busWrite sp a v) = s.poke sp a v := by
  simp only [State.takeEvent, (busReaches_iff sp a s).2 h, if_true]

/-- A bus master's write that does not reach memory changes nothing. -/
theorem takeEvent_busWrite_lost (v : Word) (h : ¬s.busReaches sp a) : s.takeEvent (.busWrite sp a v) = s := by
  simp only [State.takeEvent, mt (busReaches_iff sp a s).1 h, Bool.false_eq_true, if_false]

/-- What a bus master's write does, whether or not it reaches memory. -/
theorem takeEvent_busWrite_frame (sp : Space) (a : Addr) (v : Word) (s : State) :
    s.takeEvent (.busWrite sp a v) = { s with mem := (s.takeEvent (.busWrite sp a v)).mem } ∧
      ∀ sp' a', (sp', a') ≠ (sp, a) → (s.takeEvent (.busWrite sp a v)).peek sp' a' = s.peek sp' a' := by
  by_cases h : s.busReaches sp a
  · rw [takeEvent_busWrite v h]
    refine ⟨rfl, fun sp' a' hne => ?_⟩
    rw [State.peek_poke, if_neg (fun heq => hne (Prod.ext heq.1 heq.2))]
  · rw [takeEvent_busWrite_lost v h]
    exact ⟨rfl, fun _ _ _ => rfl⟩

/-! ### The events in each processing state -/

section EachState
variable {e : HostEvent} {q : Source} {s : State} {rest : List (List HostEvent)}

/-- In the stop state every event but the RESET pin, IRQA and a bus master's write is dropped. -/
theorem step_stop_drops (hp : s.proc = .stop) (h : s.inbox = [e] :: rest)
    (he : (∃ q, requests e q ∧ e ≠ .irqaLow) ∨ e = .debugResume) : step s = .next (s.withRest rest) := by
  have hp' : (s.withRest rest).proc = .stop := hp
  have hdrop : e ≠ .resetPin ∧ (s.withRest rest).takeEvent e = s.withRest rest := by
    rcases he with ⟨q, hq, hne⟩ | rfl
    · exact ⟨requests_ne_resetPin hq, takeEvent_request_stop hq hne hp'⟩
    · exact ⟨by simp, takeEvent_debugResume (by simp [hp])⟩
  rw [step_slot_single hdrop.1 h, hdrop.2, runState_stop hp']

/-- IRQA ends the stop state and the next instruction runs (41_program_control.md R268). -/
theorem step_stop_irqa (hp : s.proc = .stop) (h : s.inbox = [.irqaLow] :: rest) :
    step s = runCore (s.withRest rest).leaveStop := by
  have hp' : (s.withRest rest).proc = .stop := hp
  rw [step_slot_single (by simp) h, takeEvent_irqaLow_stop hp']
  exact runState_running (.inl (leaveStop_frame _).1)

/-- A request outside the stop and reset states becomes pending before the processing state acts. -/
theorem step_request (hq : requests e q) (h : s.inbox = [e] :: rest) {p : ProcState} (hp : s.proc = p)
    (hacts : p ≠ .stop ∧ p ≠ .reset) : step s = runState false ((s.withRest rest).pend q) := by
  subst hp
  rw [step_slot_single (requests_ne_resetPin hq) h, takeEvent_request (s := s.withRest rest) hq hacts.1 hacts.2]

/-- A request in the step that finds the RESET pin released is dropped (assumption 8). -/
theorem step_request_reset (hq : requests e q) (h : s.inbox = [e] :: rest) (hp : s.proc = .reset) :
    step s = .next (s.withRest rest).release := by
  have hp' : (s.withRest rest).proc = .reset := hp
  rw [step_slot_single (requests_ne_resetPin hq) h, takeEvent_request_reset hq hp', runState_reset_released hp']

/-- debug_resume gives the normal state, and the next instruction runs. -/
theorem step_debugResume (hp : s.proc = .debug) (h : s.inbox = [.debugResume] :: rest) :
    step s = runCore { s.withRest rest with proc := .normal } := by
  have hp' : (s.withRest rest).proc = .debug := hp
  rw [step_slot_single (by simp) h, takeEvent_debugResume_debug hp']
  exact runState_running (.inl rfl)

/-- The RESET pin resets whatever requests stand beside it in its slot (70_reset_and_hazards.md R560). -/
theorem step_resetPin {es : List HostEvent} (hes : ∀ e ∈ es, (∃ q, requests e q) ∨ e = .debugResume)
    (h : s.inbox = (.resetPin :: es) :: rest) : step s = .next (s.withRest rest).hardReset := by
  have htake : s.takeSlot = es.foldl (fun t e => t.takeEvent e) (s.withRest rest).hardReset := by
    simp only [State.takeSlot, h, List.foldl_cons, State.takeEvent, State.withRest]
  have hlow : s.resetLow = true := by simp [State.resetLow, h]
  rw [step, htake, hlow, foldl_takeEvent_reset es rfl hes]
  exact runState_reset_held rfl

/-- What a bus master's write leads to, by the processing state: the memory changes at most at the one word, and
then the processing state acts. -/
theorem step_busWrite {sp : Space} {a : Addr} {v : Word} (h : s.inbox = [.busWrite sp a v] :: rest) :
    ∃ t, step s = runState false t ∧ t.proc = s.proc ∧ t = { s.withRest rest with mem := t.mem } ∧
      (∀ sp' a', (sp', a') ≠ (sp, a) → t.peek sp' a' = s.peek sp' a') ∧
      (s.busReaches sp a → t.peek sp a = v) ∧ (¬s.busReaches sp a → t = s.withRest rest) := by
  obtain ⟨hframe, hpeek⟩ := takeEvent_busWrite_frame sp a v (s.withRest rest)
  refine ⟨_, step_slot_single (by simp) h, by rw [hframe]; rfl, hframe, hpeek, fun hreach => ?_, fun hlost => ?_⟩
  · rw [takeEvent_busWrite (s := s.withRest rest) v hreach, State.peek_poke, if_pos ⟨rfl, rfl⟩]
  · exact takeEvent_busWrite_lost (s := s.withRest rest) v hlost

end EachState

/-- Settles O58: in each clause the events of the slot act first (`step_stop_irqa`, `step_request`, …), and then the
processing state does (`runState_wait_none`, …). -/
theorem hostEventsActInEachState : Obligations.HostEventsActInEachState := by
  intro s rest taken
  refine ⟨fun hp => ⟨fun h => ?nil, fun h => ?empty, fun e h he => step_stop_drops hp h he, fun h => ?irqa⟩,
    fun hp h ha => ?waiting, fun q q' => ?pending, fun e q hq h => ?request, fun hp h => step_debugResume hp h,
    fun sp a v h => ?bus, fun e es he h => step_slot_cons he h, fun es hes h => step_resetPin hes h⟩
  case nil => rw [step_inbox_nil h, runState_stop hp]
  case empty => exact (step_slot_nil h).trans (runState_stop hp)
  case irqa =>
    obtain ⟨hproc, hctl, hmem, hdalu, hagu⟩ := leaveStop_frame taken
    refine ⟨step_stop_irqa hp h, hproc, hctl, hmem, hdalu, hagu, fun q hq => ?_, fun q hq => ?_⟩
    · exact (isPending_leaveStop q taken).trans (if_neg (by simp [hq]))
    · exact (isPending_leaveStop q taken).trans (if_pos hq)
  case waiting => rw [step_inbox_nil h, runState_wait_none hp ha]
  case pending => rw [pending_pend]; by_cases hq : q' = q <;> simp [hq]
  case request =>
    intro t
    have hstep {p : ProcState} (hp : s.proc = p) (hacts : p ≠ .stop ∧ p ≠ .reset) : step s = runState false t :=
      step_request hq h hp hacts
    refine ⟨fun hp ha => ?_, fun hp q' l ha => ?_, fun hp => ?_, fun hp => ?_, step_request_reset hq h⟩
    · exact (hstep hp (by simp)).trans (runState_wait_none hp ha)
    · exact (hstep hp (by simp)).trans (runState_wait_some hp ha)
    · have hacts : s.proc ≠ .stop ∧ s.proc ≠ .reset := by rcases hp with hp | hp <;> simp [hp]
      exact (hstep rfl hacts).trans (runState_running hp)
    · exact (hstep hp (by simp)).trans (runState_debug hp)
  case bus =>
    obtain ⟨t, hstep, hproc, hframe, hpeek, hreach, hlost⟩ := step_busWrite h
    refine ⟨t, fun hp => ?_, fun hp => ?_, fun hp => ⟨fun ha => ?_, fun q l ha => ?_⟩, fun hp => ?_, hframe, hpeek,
      hreach, hlost⟩ <;> rw [hstep] <;> rw [← hproc] at hp
    · exact runState_running hp
    · exact hp.elim runState_stop runState_debug
    · exact runState_wait_none hp ha
    · exact runState_wait_some hp ha
    · exact runState_reset_released hp

end Sys2Proof.Machine
end

section
/-! The restricted sequences of A.9: the checks of `hazard` are the lists that the statements use. -/

namespace Sys2Proof.Machine

/-! ### The registers that an instruction names (70_reset_and_hazards.md R581)

The functions of the checks (`moveDst`, `ctlDst`, …) are tied here to the predicates that the statements use
(`movesTo`, `bitWrites`, …). -/

section Named
variable {i : Instr} {q : Reg} {c : CtlReg}

/-- `moveDst` finds the destination of MOVEC, MOVEM and MOVEP, and of nothing else. -/
theorem moveDst_iff : moveDst i = some q ↔ movesTo i q := by
  constructor
  · intro h
    unfold moveDst at h
    split at h <;> cases h
    · exact .inl ⟨_, rfl, .inl ⟨_, _, rfl⟩⟩
    · exact .inl ⟨_, rfl, .inr (.inl ⟨_, _, rfl⟩)⟩
    · exact .inl ⟨_, rfl, .inr (.inr (.inl ⟨_, rfl⟩))⟩
    · exact .inl ⟨_, rfl, .inr (.inr (.inr ⟨_, rfl⟩))⟩
    · exact .inr (.inl ⟨_, rfl⟩)
    · exact .inr (.inr (.inl ⟨_, rfl⟩))
    · exact .inr (.inr (.inr (.inl ⟨_, rfl⟩)))
    · exact .inr (.inr (.inr (.inr ⟨_, _, rfl⟩)))
  · rintro (⟨c, rfl, ⟨_, _, rfl⟩ | ⟨_, _, rfl⟩ | ⟨_, rfl⟩ | ⟨_, rfl⟩⟩ | ⟨_, rfl⟩ | ⟨_, rfl⟩ | ⟨_, rfl⟩ |
      ⟨_, _, rfl⟩) <;> rfl

/-- `moveSrc` finds the source of MOVEC, MOVEM and MOVEP, and of nothing else. -/
theorem moveSrc_iff : moveSrc i = some q ↔ movesFrom i q := by
  constructor
  · intro h
    unfold moveSrc at h
    split at h <;> cases h
    · exact .inl ⟨_, rfl, .inl ⟨_, _, rfl⟩⟩
    · exact .inl ⟨_, rfl, .inr (.inl ⟨_, _, rfl⟩)⟩
    · exact .inl ⟨_, rfl, .inr (.inr ⟨_, rfl⟩)⟩
    · exact .inr (.inl ⟨_, rfl⟩)
    · exact .inr (.inr (.inl ⟨_, rfl⟩))
    · exact .inr (.inr (.inr (.inl ⟨_, rfl⟩)))
    · exact .inr (.inr (.inr (.inr ⟨_, _, rfl⟩)))
  · rintro (⟨c, rfl, ⟨_, _, rfl⟩ | ⟨_, _, rfl⟩ | ⟨_, rfl⟩⟩ | ⟨_, rfl⟩ | ⟨_, rfl⟩ | ⟨_, rfl⟩ | ⟨_, _, rfl⟩) <;> rfl

/-- `bitDst` finds the register of BCHG, BCLR and BSET, and of nothing else. -/
theorem bitDst_iff : bitDst i = some q ↔ bitWrites i q := by
  constructor
  · intro h
    unfold bitDst at h
    split at h <;> cases h
    · exact ⟨_, .inl rfl⟩
    · exact ⟨_, .inr (.inr rfl)⟩
    · exact ⟨_, .inr (.inl rfl)⟩
  · rintro ⟨_, rfl | rfl | rfl⟩ <;> rfl

/-- `bitJumpReg` finds the register of JCLR, JSET, JSCLR and JSSET, and of nothing else. -/
theorem bitJumpReg_iff : bitJumpReg i = some q ↔ bitJumpOn i q := by
  constructor
  · intro h
    unfold bitJumpReg at h
    split at h <;> cases h
    · exact ⟨_, _, .inr (.inr (.inr rfl))⟩
    · exact ⟨_, _, .inr (.inr (.inl rfl))⟩
    · exact ⟨_, _, .inr (.inl rfl)⟩
    · exact ⟨_, _, .inl rfl⟩
  · rintro ⟨_, _, rfl | rfl | rfl | rfl⟩ <;> rfl

/-- `ctlOf` is the inverse of the constructor of the program-controller registers. -/
theorem bind_ctlOf_iff {x : Option Reg} : x.bind ctlOf = some c ↔ x = some (.c c) := by
  rw [Option.bind_eq_some_iff]
  constructor
  · rintro ⟨q, rfl, hq⟩
    cases q with
    | c x => injection hq with hq; rw [hq]
    | d | r | n | m => cases hq
  · rintro rfl
    exact ⟨_, rfl, rfl⟩

/-- The same for a program-controller register as the destination. -/
theorem moveCtlDst_iff : moveCtlDst i = some c ↔ movesTo i (.c c) := bind_ctlOf_iff.trans moveDst_iff

/-- The same for a program-controller register as the source. -/
theorem moveCtlSrc_iff : moveCtlSrc i = some c ↔ movesFrom i (.c c) := bind_ctlOf_iff.trans moveSrc_iff

/-- A bit instruction is no move. -/
theorem moveDst_of_bitWrites (h : bitWrites i q) : moveDst i = none := by
  obtain ⟨_, rfl | rfl | rfl⟩ := h <;> rfl

/-- `ctlDst` finds the program-controller register that BCHG, BCLR, BSET, MOVEC, MOVEM or MOVEP writes. -/
theorem ctlDst_iff : ctlDst i = some c ↔ movesTo i (.c c) ∨ bitWrites i (.c c) := by
  have hbit : (bitDst i).bind ctlOf = some c ↔ bitWrites i (.c c) := bind_ctlOf_iff.trans bitDst_iff
  rw [← moveCtlDst_iff, ← hbit]
  simp only [ctlDst, Option.orElse_eq_orElse, Option.orElse_eq_or, Option.or_eq_some_iff]
  refine or_congr_right ⟨And.right, fun h => ⟨?_, h⟩⟩
  rw [moveCtlDst, moveDst_of_bitWrites (hbit.1 h)]
  rfl

/-- `oneOf` says that a register is there and in the list. -/
theorem oneOf_iff {x : Option CtlReg} {l : List CtlReg} : oneOf x l = true ↔ ∃ c, x = some c ∧ c ∈ l := by
  cases x <;> simp [oneOf]

/-- `writesMr` marks ANDI and ORI of MR. -/
theorem writesMr_iff : writesMr i = true ↔ ∃ n, i = .andi n .mr ∨ i = .ori n .mr := by
  constructor
  · intro h
    unfold writesMr at h
    split at h
    · exact ⟨_, .inl rfl⟩
    · exact ⟨_, .inr rfl⟩
    · cases h
  · rintro ⟨_, rfl | rfl⟩ <;> rfl

/-- `writesCcr` marks ANDI and ORI of CCR. -/
theorem writesCcr_iff : writesCcr i = true ↔ ∃ n, i = .andi n .ccr ∨ i = .ori n .ccr := by
  constructor
  · intro h
    unfold writesCcr at h
    split at h
    · exact ⟨_, .inl rfl⟩
    · exact ⟨_, .inr rfl⟩
    · cases h
  · rintro ⟨_, rfl | rfl⟩ <;> rfl

end Named

/-! ### The lists of A.9 -/

section Lists
variable {i : Instr}

/-- What has PC as a destination (R567). -/
theorem changesFlow_iff : changesFlow i = true ↔ isJump i = true ∨ isBitJump i = true ∨ i = .rti ∨ i = .rts := by
  simp only [changesFlow, Bool.or_eq_true, beq_iff_eq, or_assoc]

/-- `badNearEnd` is the list of R568 and the prose of R567. -/
theorem badNearEnd_iff : badNearEnd i = true ↔ listedNearLoopEnd i := by
  unfold listedNearLoopEnd
  constructor
  · intro h
    simp only [badNearEnd, Bool.or_eq_true, oneOf_iff, ctlDst_iff, beq_iff_eq, moveCtlSrc_iff, changesFlow_iff,
      writesMr_iff] at h
    rcases h with ((((hdo | hwrites) | hreads) | hjump | hbit | hrti | hrts) | hmr) | hssh
    · exact .inl hdo
    · exact .inr (.inr (.inr (.inr (.inr (.inl hwrites)))))
    · simp only [hreads, true_or, or_true]
    · exact .inr (.inl hjump)
    · exact .inr (.inr (.inl hbit))
    · simp only [hrti, true_or, or_true]
    · simp only [hrts, true_or, or_true]
    · simp only [hmr, or_true]
    · split at hssh
      · simp
      · simp
      · cases hssh
  · have of_flow (h : changesFlow i = true) : badNearEnd i = true := by
      simp only [badNearEnd, h, Bool.true_or, Bool.or_true]
    rintro (hdo | hjump | hbit | rfl | rfl | ⟨c, hwrites, hc⟩ | hreads | ⟨_, rfl⟩ | rfl | hmr)
    · simp only [badNearEnd, hdo, Bool.true_or]
    · exact of_flow (changesFlow_iff.2 (.inl hjump))
    · exact of_flow (changesFlow_iff.2 (.inr (.inl hbit)))
    · rfl
    · rfl
    · have hone : oneOf (ctlDst i) [.la, .lc, .sr, .sp, .ssh, .ssl] = true := oneOf_iff.2 ⟨c, ctlDst_iff.2 hwrites, hc⟩
      simp only [badNearEnd, hone, Bool.true_or, Bool.or_true]
    · have hssh : (moveCtlSrc i == some .ssh) = true := beq_iff_eq.2 (moveCtlSrc_iff.2 hreads)
      simp only [badNearEnd, hssh, Bool.true_or, Bool.or_true]
    · rfl
    · rfl
    · simp only [badNearEnd, writesMr_iff.2 hmr, Bool.true_or, Bool.or_true]

/-- `badAtEnd` is the list of R569. -/
theorem badAtEnd_iff : badAtEnd i = true ↔ listedAtLoopEnd i := by
  unfold listedAtLoopEnd
  constructor
  · intro h
    simp only [badAtEnd, Bool.or_eq_true, beq_iff_eq] at h
    rcases h with ((hwords | hjump) | hrep) | hother
    · exact .inl hwords
    · exact .inr (.inl hjump)
    · exact .inr (.inr (.inl hrep))
    · refine .inr (.inr (.inr ?_))
      split at hother <;> simp at hother ⊢
  · rintro (hwords | hjump | hrep | hother)
    · simp only [badAtEnd, hwords, BEq.rfl, Bool.true_or]
    · simp only [badAtEnd, hjump, Bool.true_or, Bool.or_true]
    · simp only [badAtEnd, hrep, Bool.true_or, Bool.or_true]
    · simp only [List.mem_cons, List.not_mem_nil, or_false] at hother
      rcases hother with rfl | rfl | rfl | rfl | rfl <;> rfl

/-- ANDI and ORI of MR and of CCR. -/
theorem writesMr_or_writesCcr_iff :
    writesMr i = true ∨ writesCcr i = true ↔
      ∃ n e, e ∈ [ImmDest.mr, .ccr] ∧ (i = .andi n e ∨ i = .ori n e) := by
  rw [writesMr_iff, writesCcr_iff]
  constructor
  · rintro (⟨n, h⟩ | ⟨n, h⟩)
    · exact ⟨n, .mr, by simp, h⟩
    · exact ⟨n, .ccr, by simp, h⟩
  · rintro ⟨n, e, he, h⟩
    cases e with
    | mr => exact .inl ⟨n, h⟩
    | ccr => exact .inr ⟨n, h⟩
    | omr => simp at he

/-- `badInFast` is the list of R579. -/
theorem badInFast_iff : badInFast i = true ↔ listedInVector i := by
  unfold listedInVector
  rw [← writesMr_or_writesCcr_iff]
  constructor
  · intro h
    simp only [badInFast, Bool.or_eq_true, oneOf_iff, moveCtlDst_iff, beq_iff_eq, moveCtlSrc_iff] at h
    rcases h with ((((hdo | hwrites) | hreads) | hmr) | hccr) | hother
    · exact .inl hdo
    · exact .inr (.inr (.inl hwrites))
    · exact .inr (.inr (.inr (.inl hreads)))
    · exact .inr (.inr (.inr (.inr (.inl hmr))))
    · exact .inr (.inr (.inr (.inr (.inr hccr))))
    · refine .inr (.inl ?_)
      split at hother <;> simp at hother ⊢
  · rintro (hdo | hother | ⟨c, hwrites, hc⟩ | hreads | hmr | hccr)
    · simp only [badInFast, hdo, Bool.true_or]
    · simp only [List.mem_cons, List.not_mem_nil, or_false] at hother
      rcases hother with rfl | rfl | rfl | rfl | rfl | rfl <;> rfl
    · have hone : oneOf (moveCtlDst i) [.la, .lc, .ssh, .ssl, .sp, .sr] = true :=
        oneOf_iff.2 ⟨c, moveCtlDst_iff.2 hwrites, hc⟩
      simp only [badInFast, hone, Bool.true_or, Bool.or_true]
    · have hssh : (moveCtlSrc i == some .ssh) = true := beq_iff_eq.2 (moveCtlSrc_iff.2 hreads)
      simp only [badInFast, hssh, Bool.true_or, Bool.or_true]
    · simp only [badInFast, hmr, Bool.true_or, Bool.or_true]
    · simp only [badInFast, hccr, Bool.true_or, Bool.or_true]

end Lists

/-! ### Immediately before (R571 to R574) -/

section Before
variable {i : Instr} {p : Prev}

/-- The marks that stop DO (R571). -/
def marksDo (p : Prev) : Prop :=
  (∃ c, p.wrote = some c ∧ c ∈ [CtlReg.la, .lc, .ssh, .ssl, .sp]) ∨ p.fromSsh = true

/-- The marks that stop ENDDO (R572). -/
def marksEnddo (p : Prev) : Prop :=
  (∃ c, p.wrote = some c ∧ c ∈ [CtlReg.la, .lc, .sr, .ssh, .ssl, .sp]) ∨ p.fromSsh = true ∨ p.immMr = true

/-- The marks that stop RTI (R573). -/
def marksRti (p : Prev) : Prop :=
  (∃ c, p.wrote = some c ∧ c ∈ [CtlReg.sr, .ssh, .ssl, .sp]) ∨ p.fromSsh = true ∨ p.immMr = true ∨ p.immCcr = true

/-- The marks that stop RTS (R573). -/
def marksRts (p : Prev) : Prop :=
  (∃ c, p.wrote = some c ∧ c ∈ [CtlReg.ssh, .ssl, .sp]) ∨ p.fromSsh = true

/-- MOVEC, MOVEM, MOVEP or a bit-test jump reads SSH or SSL (R574). -/
def readsStack (i : Instr) : Prop :=
  ∃ c, (movesFrom i (.c c) ∨ bitJumpOn i (.c c)) ∧ c ∈ [CtlReg.ssh, .ssl]

/-- The guard of the check on reads of SSH and SSL. -/
theorem readsStack_iff :
    (oneOf (moveCtlSrc i) [.ssh, .ssl] || oneOf ((bitJumpReg i).bind ctlOf) [.ssh, .ssl]) = true ↔ readsStack i := by
  have hjump {c : CtlReg} : (bitJumpReg i).bind ctlOf = some c ↔ bitJumpOn i (.c c) :=
    bind_ctlOf_iff.trans bitJumpReg_iff
  simp only [Bool.or_eq_true, oneOf_iff, moveCtlSrc_iff, hjump, readsStack, or_and_right, exists_or]

/-- A read of SSH or SSL is none of DO, ENDDO, RTI and RTS. -/
theorem not_of_readsStack (h : readsStack i) : isDo i = false ∧ i ≠ .enddo ∧ i ≠ .rti ∧ i ≠ .rts := by
  obtain ⟨c, hmove | hjump, -⟩ := h
  · rcases hmove with ⟨_, _, ⟨_, _, rfl⟩ | ⟨_, _, rfl⟩ | ⟨_, rfl⟩⟩ | ⟨_, rfl⟩ | ⟨_, rfl⟩ | ⟨_, rfl⟩ | ⟨_, _, rfl⟩ <;>
      simp [isDo]
  · obtain ⟨_, _, rfl | rfl | rfl | rfl⟩ := hjump <;> simp [isDo]

/-- The check of what stands immediately before, with its guards in the words of R571 to R574. -/
theorem badAfter_iff {r : Restriction} :
    badAfter i p = some r ↔
      r = .beforeDo ∧ isDo i = true ∧ marksDo p ∨
      r = .beforeEnddo ∧ i = .enddo ∧ marksEnddo p ∨
      r = .beforeReturn ∧ (i = .rti ∧ marksRti p ∨ i = .rts ∧ marksRts p) ∨
      r = .stackAccess ∧ readsStack i ∧ p.wrote = some .sp := by
  have hdo : (isDo i && (oneOf p.wrote [.la, .lc, .ssh, .ssl, .sp] || p.fromSsh)) = true ↔
      isDo i = true ∧ marksDo p := by
    simp only [Bool.and_eq_true, Bool.or_eq_true, oneOf_iff, marksDo]
  have henddo : (i == .enddo && (oneOf p.wrote [.la, .lc, .sr, .ssh, .ssl, .sp] || p.fromSsh || p.immMr)) = true ↔
      i = .enddo ∧ marksEnddo p := by
    simp only [Bool.and_eq_true, Bool.or_eq_true, oneOf_iff, beq_iff_eq, marksEnddo, or_assoc]
  have hrti : (i == .rti && (oneOf p.wrote [.sr, .ssh, .ssl, .sp] || p.fromSsh || p.immMr || p.immCcr)) = true ↔
      i = .rti ∧ marksRti p := by
    simp only [Bool.and_eq_true, Bool.or_eq_true, oneOf_iff, beq_iff_eq, marksRti, or_assoc]
  have hrts : (i == .rts && (oneOf p.wrote [.ssh, .ssl, .sp] || p.fromSsh)) = true ↔ i = .rts ∧ marksRts p := by
    simp only [Bool.and_eq_true, Bool.or_eq_true, oneOf_iff, beq_iff_eq, marksRts]
  have hstack : ((oneOf (moveCtlSrc i) [.ssh, .ssl] || oneOf ((bitJumpReg i).bind ctlOf) [.ssh, .ssl]) &&
      p.wrote == some .sp) = true ↔ readsStack i ∧ p.wrote = some .sp := by
    rw [Bool.and_eq_true, readsStack_iff, beq_iff_eq]
  unfold badAfter
  constructor
  · intro h
    split at h
    case isTrue hg => cases h; exact .inl ⟨rfl, hdo.1 hg⟩
    split at h
    case isTrue hg => cases h; exact .inr (.inl ⟨rfl, henddo.1 hg⟩)
    split at h
    case isTrue hg => cases h; exact .inr (.inr (.inl ⟨rfl, .inl (hrti.1 hg)⟩))
    split at h
    case isTrue hg => cases h; exact .inr (.inr (.inl ⟨rfl, .inr (hrts.1 hg)⟩))
    split at h
    case isTrue hg => cases h; exact .inr (.inr (.inr ⟨rfl, hstack.1 hg⟩))
    cases h
  · rintro (⟨rfl, h⟩ | ⟨rfl, h⟩ | ⟨rfl, h | h⟩ | ⟨rfl, h⟩)
    · rw [if_pos (hdo.2 h)]
    · rw [if_neg (by simp [h.1, isDo]), if_pos (henddo.2 h)]
    · rw [if_neg (by simp [h.1, isDo]), if_neg (by simp [h.1]), if_pos (hrti.2 h)]
    · rw [if_neg (by simp [h.1, isDo]), if_neg (by simp [h.1]), if_neg (by simp [h.1]), if_pos (hrts.2 h)]
    · obtain ⟨hndo, hnenddo, hnrti, hnrts⟩ := not_of_readsStack h.1
      rw [if_neg (by simp [hndo]), if_neg (by simp [hnenddo]), if_neg (by simp [hnrti]), if_neg (by simp [hnrts]),
        if_pos (hstack.2 h)]

end Before

/-! ### Where the instruction stands (R567) -/

section Place
variable {i : Instr} {s : State}

/-- A word of a vector counts by its own address. -/
theorem fetchAddrs_place {place : Addr}
    (h : s.vec = none ∧ place = s.ctl.pc ∨
      ∃ v, s.vec = some v ∧ (v.slot = 0 ∧ place = v.addr ∨ v.slot ≠ 0 ∧ place = v.addr + 1)) :
    s.fetchAddrs.1 = place := by
  unfold State.fetchAddrs
  rcases h with ⟨hv, rfl⟩ | ⟨v, hv, ⟨hslot, rfl⟩ | ⟨hslot, rfl⟩⟩
  · simp only [hv]
  · simp only [hv, if_pos hslot]
  · simp only [hv, if_neg hslot]

/-- The address compared is the instruction's own. -/
theorem atLa_iff {d : Addr} : atLa s d = true ↔ s.lf = true ∧ s.fetchAddrs.1 + d = s.ctl.la := by
  simp only [atLa, Bool.and_eq_true, beq_iff_eq]

/-- At LA of an active loop. -/
theorem atLa_zero_iff : atLa s 0 = true ↔ s.lf = true ∧ s.fetchAddrs.1 = s.ctl.la := by
  simp [atLa_iff]

/-- At LA-2, LA-1 or LA of an active loop. -/
theorem nearLa_iff :
    (atLa s 0 || atLa s 1 || atLa s 2) = true ↔
      s.lf = true ∧ ∃ d : Addr, d.toNat ≤ 2 ∧ s.fetchAddrs.1 + d = s.ctl.la := by
  simp only [Bool.or_eq_true, atLa_iff]
  constructor
  · rintro ((⟨hlf, h⟩ | ⟨hlf, h⟩) | ⟨hlf, h⟩) <;> exact ⟨hlf, _, by decide, h⟩
  · rintro ⟨hlf, d, hd, h⟩
    have hcases : d = 0 ∨ d = 1 ∨ d = 2 := by bv_omega
    rcases hcases with rfl | rfl | rfl
    · exact .inl (.inl ⟨hlf, h⟩)
    · exact .inl (.inr ⟨hlf, h⟩)
    · exact .inr ⟨hlf, h⟩

end Place

/-! ### Address generation just after a move (R576, R578) -/

/-- The modes with an offset register read it (R576). -/
theorem modeReadsN_iff {m : AguMode} : modeReadsN m = true ↔ m ∈ [AguMode.postAddN, .postSubN, .indexed] := by
  cases m <;> simp [modeReadsN]

/-- An operand uses Rn in every mode, Nn in the modes that read it, and Mn in all modes but No Update. -/
theorem indUses_iff {q : Reg} {j : Ind} :
    indUses q j = true ↔ q = .r j.reg ∨ (q = .n j.reg ∧ j.mode ∈ [AguMode.postAddN, .postSubN, .indexed]) ∨
      (q = .m j.reg ∧ j.mode ≠ .noUpdate) := by
  cases q with
  | r k => simp [indUses, eq_comm (a := k)]
  | n k => simp [indUses, modeReadsN_iff, eq_comm (a := k)]
  | m k => simp [indUses, eq_comm (a := k)]
  | d x => simp [indUses]
  | c x => simp [indUses]

/-! ### The checks in their order (R566) -/

section Hazard
variable {i : Instr} {s : State} {r : Restriction}

/-- The check of A.9.6. -/
def aguClash (i : Instr) (s : State) : Prop := ∃ q, s.aguWritten = some q ∧ ∃ j ∈ addrUses i, indUses q j = true

/-- What stops an instruction is the first of the checks that finds it in its list. -/
theorem hazard_cases (h : hazard i s = some r) :
    r = .nearLoopEnd ∧ (atLa s 0 || atLa s 1 || atLa s 2) = true ∧ badNearEnd i = true ∨
    r = .atLoopEnd ∧ atLa s 0 = true ∧ badAtEnd i = true ∨
    r = .fastInterrupt ∧ s.vec ≠ none ∧ badInFast i = true ∨
    badAfter i s.prev = some r ∨
    r = .aguDelay ∧ aguClash i s := by
  unfold hazard at h
  split at h
  case isTrue hg => cases h; exact .inl ⟨rfl, Bool.and_eq_true_iff.1 hg⟩
  split at h
  case isTrue hg => cases h; exact .inr (.inl ⟨rfl, Bool.and_eq_true_iff.1 hg⟩)
  split at h
  case isTrue hg =>
    cases h
    obtain ⟨hvec, hbad⟩ := Bool.and_eq_true_iff.1 hg
    exact .inr (.inr (.inl ⟨rfl, Option.isSome_iff_ne_none.1 hvec, hbad⟩))
  split at h
  case h_1 hafter => exact .inr (.inr (.inr (.inl (hafter.trans h))))
  split at h
  case h_2 => cases h
  case h_1 q hq =>
    split at h
    case isFalse => cases h
    case isTrue hany => cases h; exact .inr (.inr (.inr (.inr ⟨rfl, q, hq, List.any_eq_true.1 hany⟩)))

/-- Near a loop end a listed instruction stops. -/
theorem hazard_nearLoopEnd (hnear : (atLa s 0 || atLa s 1 || atLa s 2) = true) (hbad : badNearEnd i = true) :
    hazard i s = some .nearLoopEnd := by
  simp only [hazard, hnear, hbad, Bool.and_self, if_true]

/-- At a loop end a listed instruction stops, under the one name or the other. -/
theorem hazard_atLoopEnd (hat : atLa s 0 = true) (hbad : badAtEnd i = true) : ∃ r, hazard i s = some r := by
  unfold hazard
  split
  · exact ⟨_, rfl⟩
  · exact ⟨_, if_pos (by rw [hat, hbad]; rfl)⟩

/-- Outside a loop no check of A.9.1 stops an instruction. -/
theorem atLa_of_not_lf (hlf : s.lf = false) (d : Addr) : atLa s d = false := by
  simp only [atLa, hlf, Bool.false_and]

/-- In a vector a listed instruction stops; outside a loop it does so under the name of A.9.7. -/
theorem hazard_inVector {v : VecState} (hvec : s.vec = some v) (hbad : badInFast i = true) :
    (∃ r, hazard i s = some r) ∧ (s.lf = false → hazard i s = some .fastInterrupt) := by
  refine ⟨?_, fun hlf => ?_⟩
  · unfold hazard
    split
    · exact ⟨_, rfl⟩
    split
    · exact ⟨_, rfl⟩
    exact ⟨_, if_pos (by simp [hvec, hbad])⟩
  · simp [hazard, atLa_of_not_lf hlf, hvec, hbad]

/-- Outside a loop and a vector the marks of the instruction before stop the next one. -/
theorem hazard_badAfter (hlf : s.lf = false) (hvec : s.vec = none) (h : badAfter i s.prev = some r) :
    hazard i s = some r := by
  simp [hazard, atLa_of_not_lf hlf, hvec, h]

end Hazard

/-! ### The clauses of A.9 -/

section Clauses
variable {i : Instr} {s : State}

/-- What an instruction leaves for the checks of the next one (R566, R581). -/
theorem prevOf_marks (i : Instr) :
    (∀ c, (prevOf i).wrote = some c ↔ movesTo i (.c c) ∨ bitWrites i (.c c)) ∧
      ((prevOf i).fromSsh = true ↔ movesFrom i (.c .ssh)) ∧
      ((prevOf i).immMr = true ↔ ∃ n, i = .andi n .mr ∨ i = .ori n .mr) ∧
      ((prevOf i).immCcr = true ↔ ∃ n, i = .andi n .ccr ∨ i = .ori n .ccr) :=
  ⟨fun _ => ctlDst_iff, beq_iff_eq.trans moveCtlSrc_iff, writesMr_iff, writesCcr_iff⟩

/-- DO does not run just after an instruction of its list (R571). -/
theorem hazard_beforeDo (hlf : s.lf = false) (hvec : s.vec = none) (hi : isDo i = true) (h : marksDo s.prev) :
    hazard i s = some .beforeDo :=
  hazard_badAfter hlf hvec (badAfter_iff.2 (.inl ⟨rfl, hi, h⟩))

/-- ENDDO does not run just after an instruction of its list (R572). -/
theorem hazard_beforeEnddo (hlf : s.lf = false) (hvec : s.vec = none) (h : marksEnddo s.prev) :
    hazard .enddo s = some .beforeEnddo :=
  hazard_badAfter hlf hvec (badAfter_iff.2 (.inr (.inl ⟨rfl, rfl, h⟩)))

/-- RTI does not run just after an instruction of its list (R573). -/
theorem hazard_beforeRti (hlf : s.lf = false) (hvec : s.vec = none) (h : marksRti s.prev) :
    hazard .rti s = some .beforeReturn :=
  hazard_badAfter hlf hvec (badAfter_iff.2 (.inr (.inr (.inl ⟨rfl, .inl ⟨rfl, h⟩⟩))))

/-- RTS does not run just after an instruction of its list (R573). -/
theorem hazard_beforeRts (hlf : s.lf = false) (hvec : s.vec = none) (h : marksRts s.prev) :
    hazard .rts s = some .beforeReturn :=
  hazard_badAfter hlf hvec (badAfter_iff.2 (.inr (.inr (.inl ⟨rfl, .inr ⟨rfl, h⟩⟩))))

/-- SSH and SSL are not read just after a write of SP (R574). -/
theorem hazard_stackAccess (hlf : s.lf = false) (hvec : s.vec = none) (hi : readsStack i)
    (h : s.prev.wrote = some .sp) : hazard i s = some .stackAccess :=
  hazard_badAfter hlf hvec (badAfter_iff.2 (.inr (.inr (.inr ⟨rfl, hi, h⟩))))

end Clauses

/-- Settles O59: the checks are the lists of A.9 (`badNearEnd_iff`, `badAtEnd_iff`, `badInFast_iff`, `badAfter_iff`),
and `hazard` is the first of them that applies (`hazard_cases`). -/
theorem restrictedSequencesStop : Obligations.RestrictedSequencesStop := by
  refine ⟨fun i => ?marks, fun s hlf hvec => ?before, fun s i place hlf hplace => ?loop, fun s v i hvec hlist =>
    hazard_inVector hvec (badInFast_iff.2 hlist), fun s i r h => ?converse⟩
  case marks =>
    obtain ⟨hwrote, hssh, hmr, hccr⟩ := prevOf_marks i
    exact ⟨hwrote, hssh, hmr, hccr, fun s t => (marks_retire i s t).1⟩
  case before =>
    exact ⟨fun i c hi hc hmem => hazard_beforeDo hlf hvec hi (.inl ⟨c, hc, hmem⟩),
      fun i hi hssh => hazard_beforeDo hlf hvec hi (.inr hssh),
      fun c hc hmem => hazard_beforeEnddo hlf hvec (.inl ⟨c, hc, hmem⟩),
      fun h => hazard_beforeEnddo hlf hvec (.inr h),
      fun c hc hmem => hazard_beforeRti hlf hvec (.inl ⟨c, hc, hmem⟩),
      fun h => hazard_beforeRti hlf hvec (.inr h),
      fun c hc hmem => hazard_beforeRts hlf hvec (.inl ⟨c, hc, hmem⟩),
      fun h => hazard_beforeRts hlf hvec (.inr h),
      fun i c hread hmem hsp => hazard_stackAccess hlf hvec ⟨c, hread, hmem⟩ hsp⟩
  case loop =>
    have hfetch : s.fetchAddrs.1 = place := fetchAddrs_place hplace
    refine ⟨fun d hd hla hlist => ?_, fun hla hlist => ?_⟩
    · exact hazard_nearLoopEnd (nearLa_iff.2 ⟨hlf, d, hd, hfetch ▸ hla⟩) (badNearEnd_iff.2 hlist)
    · exact hazard_atLoopEnd (atLa_zero_iff.2 ⟨hlf, hfetch.trans hla⟩) (badAtEnd_iff.2 hlist)
  case converse =>
    rcases hazard_cases h with ⟨rfl, hnear, hbad⟩ | ⟨rfl, hat, hbad⟩ | ⟨rfl, hvec, hbad⟩ | hafter |
      ⟨rfl, q, hq, j, hj, huse⟩
    · obtain ⟨hlf, hplace⟩ := nearLa_iff.1 hnear
      exact ⟨hlf, badNearEnd_iff.1 hbad, hplace⟩
    · obtain ⟨hlf, hplace⟩ := atLa_zero_iff.1 hat
      exact ⟨hlf, hplace, badAtEnd_iff.1 hbad⟩
    · exact ⟨hvec, badInFast_iff.1 hbad⟩
    · rcases badAfter_iff.1 hafter with ⟨rfl, hstop⟩ | ⟨rfl, hstop⟩ | ⟨rfl, hstop⟩ | ⟨rfl, hread, hsp⟩
      · exact hstop
      · exact hstop
      · exact hstop
      · exact ⟨hsp, hread⟩
    · refine ⟨j, hj, ?_⟩
      rw [hq]
      simpa only [Option.some.injEq] using indUses_iff.1 huse

end Sys2Proof.Machine
end

section
/-! What an operation of the state may change, said once: the registers, the status bits, and the run state. `Effect` is
the common frame; each operation has its rule, and each instruction's frame is put together from the rules. -/

namespace Sys2Proof.Machine

/-! ### Status bits as sets -/

/-- Every status bit of `b` is one of `c`. -/
def bitsIn (b c : BitVec 16) : Prop := ∀ k, c.getLsbD k = false → b.getLsbD k = false

section Bits
variable {a b c : BitVec 16}

theorem bitsIn_refl (b : BitVec 16) : bitsIn b b := fun _ h => h

theorem bitsIn_zero (c : BitVec 16) : bitsIn 0 c := fun _ _ => by simp

/-- The test that `decide` runs on two literals. -/
theorem bitsIn_of_or (h : b ||| c = c) : bitsIn b c := fun k hk => by
  rw [← h, BitVec.getLsbD_or, Bool.or_eq_false_iff] at hk
  exact hk.1

theorem bitsIn_or_iff : bitsIn (a ||| b) c ↔ bitsIn a c ∧ bitsIn b c := by
  simp only [bitsIn, BitVec.getLsbD_or, Bool.or_eq_false_iff]
  exact ⟨fun h => ⟨fun k hk => (h k hk).1, fun k hk => (h k hk).2⟩, fun h k hk => ⟨h.1 k hk, h.2 k hk⟩⟩

theorem bitsIn_or_left (h : bitsIn a b) (c : BitVec 16) : bitsIn a (b ||| c) := fun k hk => by
  rw [BitVec.getLsbD_or, Bool.or_eq_false_iff] at hk
  exact h k hk.1

theorem bitsIn_or_right (h : bitsIn a c) (b : BitVec 16) : bitsIn a (b ||| c) := fun k hk => by
  rw [BitVec.getLsbD_or, Bool.or_eq_false_iff] at hk
  exact h k hk.2

end Bits

/-! ### The frame of an operation -/

/-- From `s` to `t` an operation changes no register but `regs` and no status bit but `bits`, keeps SR and the memories
legal, and leaves the marks, the inbox, the parameters, the cycle count and the REP state alone. It starts no vector and
changes the processing state only where it ends the vector in progress, which gives the normal state. Proofs go through
its rules, never through its body. -/
@[irreducible] def Effect (regs : List Reg) (bits : BitVec 16) (s t : State) : Prop :=
  (∀ q ∉ regs, t.raw q = s.raw q) ∧
  (s.srLegal = true → t.srLegal = true) ∧
  (s.srLegal = true → ∀ k, bits.getLsbD k = false → t.ctl.sr.getLsbD k = s.ctl.sr.getLsbD k) ∧
  (s.memLegal = true → t.memLegal = true) ∧
  (t.prev = s.prev ∧ t.aguWritten = s.aguWritten ∧ t.inbox = s.inbox ∧ t.plat = s.plat ∧ t.clock = s.clock ∧
    t.rep = s.rep) ∧
  (s.vec = none → t.vec = none ∧ t.proc = s.proc) ∧
  (s.vec ≠ none → t.vec ≠ none ∧ t.proc = s.proc ∨ t.vec = none ∧ t.proc = .normal)

namespace Effect
variable {regs regs' : List Reg} {bits bits' : BitVec 16} {s t u : State}

theorem iff_parts : Effect regs bits s t ↔
    (∀ q ∉ regs, t.raw q = s.raw q) ∧
    (s.srLegal = true → t.srLegal = true) ∧
    (s.srLegal = true → ∀ k, bits.getLsbD k = false → t.ctl.sr.getLsbD k = s.ctl.sr.getLsbD k) ∧
    (s.memLegal = true → t.memLegal = true) ∧
    (t.prev = s.prev ∧ t.aguWritten = s.aguWritten ∧ t.inbox = s.inbox ∧ t.plat = s.plat ∧ t.clock = s.clock ∧
      t.rep = s.rep) ∧
    (s.vec = none → t.vec = none ∧ t.proc = s.proc) ∧
    (s.vec ≠ none → t.vec ≠ none ∧ t.proc = s.proc ∨ t.vec = none ∧ t.proc = .normal) := by
  rw [Effect]

/-! The parts of an effect by name. -/

section Parts
variable (h : Effect regs bits s t)
include h

theorem raw : ∀ q ∉ regs, t.raw q = s.raw q :=
  let ⟨raw, _⟩ := iff_parts.1 h
  raw

theorem srLegal : s.srLegal = true → t.srLegal = true :=
  let ⟨_, srLegal, _⟩ := iff_parts.1 h
  srLegal

theorem status : s.srLegal = true → ∀ k, bits.getLsbD k = false → t.ctl.sr.getLsbD k = s.ctl.sr.getLsbD k :=
  let ⟨_, _, status, _⟩ := iff_parts.1 h
  status

theorem memLegal : s.memLegal = true → t.memLegal = true :=
  let ⟨_, _, _, memLegal, _⟩ := iff_parts.1 h
  memLegal

theorem hidden :
    t.prev = s.prev ∧ t.aguWritten = s.aguWritten ∧ t.inbox = s.inbox ∧ t.plat = s.plat ∧ t.clock = s.clock ∧
      t.rep = s.rep :=
  let ⟨_, _, _, _, hidden, _⟩ := iff_parts.1 h
  hidden

theorem outside : s.vec = none → t.vec = none ∧ t.proc = s.proc :=
  let ⟨_, _, _, _, _, outside, _⟩ := iff_parts.1 h
  outside

theorem inside : s.vec ≠ none → t.vec ≠ none ∧ t.proc = s.proc ∨ t.vec = none ∧ t.proc = .normal :=
  let ⟨_, _, _, _, _, _, inside⟩ := iff_parts.1 h
  inside

end Parts

theorem refl (s : State) : Effect [] 0 s s :=
  iff_parts.2 ⟨fun _ _ => rfl, id, fun _ _ _ => rfl, id, ⟨rfl, rfl, rfl, rfl, rfl, rfl⟩, fun h => ⟨h, rfl⟩,
    fun h => .inl ⟨h, rfl⟩⟩

theorem mono (h : Effect regs bits s t) (hr : regs ⊆ regs') (hb : bitsIn bits bits') : Effect regs' bits' s t :=
  iff_parts.2 ⟨fun q hq => h.raw q fun hq' => hq (hr hq'), h.srLegal, fun hs k hk => h.status hs k (hb k hk),
    h.memLegal, h.hidden, h.outside, h.inside⟩

/-- Two operations of one frame, one after the other. -/
theorem trans (h : Effect regs bits s t) (h' : Effect regs bits t u) : Effect regs bits s u := by
  refine iff_parts.2 ⟨fun q hq => (h'.raw q hq).trans (h.raw q hq), fun hs => h'.srLegal (h.srLegal hs),
    fun hs k hk => (h'.status (h.srLegal hs) k hk).trans (h.status hs k hk), fun hs => h'.memLegal (h.memLegal hs),
    ?hidden, ?outside, ?inside⟩
  case hidden =>
    obtain ⟨h1, h2, h3, h4, h5, h6⟩ := h.hidden
    obtain ⟨h1', h2', h3', h4', h5', h6'⟩ := h'.hidden
    exact ⟨h1'.trans h1, h2'.trans h2, h3'.trans h3, h4'.trans h4, h5'.trans h5, h6'.trans h6⟩
  case outside =>
    intro hs
    obtain ⟨hv, hp⟩ := h.outside hs
    obtain ⟨hv', hp'⟩ := h'.outside hv
    exact ⟨hv', hp'.trans hp⟩
  case inside =>
    intro hs
    rcases h.inside hs with ⟨hv, hp⟩ | ⟨hv, hp⟩
    · rw [← hp]
      exact h'.inside hv
    · obtain ⟨hv', hp'⟩ := h'.outside hv
      exact .inr ⟨hv', hp'.trans hp⟩

/-- Two operations, one after the other: the registers and the bits of both. -/
theorem seq (h : Effect regs bits s t) (h' : Effect regs' bits' t u) :
    Effect (regs ++ regs') (bits ||| bits') s u :=
  (h.mono (List.subset_append_left _ _) (bitsIn_or_left (bitsIn_refl _) _)).trans
    (h'.mono (List.subset_append_right _ _) (bitsIn_or_right (bitsIn_refl _) _))

/-- An operation that leaves SR, the memories and the run state alone. -/
theorem of_registers
    (h : t = { s with
      dalu := t.dalu, agu := t.agu, ctl := { t.ctl with sr := s.ctl.sr }, ipr := t.ipr, bcr := t.bcr
      pending := t.pending, outbox := t.outbox, draws := t.draws })
    (hraw : ∀ q ∉ regs, t.raw q = s.raw q) : Effect regs 0 s t := by
  have hsr : t.ctl.sr = s.ctl.sr := by rw [h]
  have hplat : t.plat = s.plat := by rw [h]
  have hmem : t.mem = s.mem := by rw [h]
  have hvec : t.vec = s.vec := by rw [h]
  have hproc : t.proc = s.proc := by rw [h]
  refine iff_parts.2 ⟨hraw, ?srLegal, fun _ _ _ => by rw [hsr], ?memLegal, ?hidden, fun hv => ⟨hvec.trans hv, hproc⟩,
    fun hv => .inl ⟨hvec ▸ hv, hproc⟩⟩
  case srLegal =>
    simp only [State.srLegal, hsr, hplat]
    exact id
  case memLegal =>
    simp only [State.memLegal, hmem]
    exact id
  case hidden =>
    rw [h]
    exact ⟨rfl, rfl, rfl, rfl, rfl, rfl⟩

end Effect

/-! ### Registers -/

/-- The bits of an accumulator put together from its parts. -/
theorem accJoin_bit (e : BitVec 8) (m l : Word) (i : Nat) :
    (accJoin e m l).getLsbD i =
      if i < 24 then l.getLsbD i else if i - 24 < 24 then m.getLsbD (i - 24) else e.getLsbD (i - 24 - 24) := by
  simp only [accJoin, BitVec.getLsbD_append]

@[simp] theorem accExt_accJoin (e : BitVec 8) (m l : Word) : accExt (accJoin e m l) = e := by
  refine BitVec.eq_of_getLsbD_eq fun i hi => ?_
  have h1 : 48 + i - 24 - 24 = i := by omega
  rw [accExt, BitVec.getLsbD_extractLsb', accJoin_bit, if_neg (by omega), if_neg (by omega), h1]
  simp [hi]

@[simp] theorem accMid_accJoin (e : BitVec 8) (m l : Word) : accMid (accJoin e m l) = m := by
  refine BitVec.eq_of_getLsbD_eq fun i hi => ?_
  have h1 : 24 + i - 24 = i := by omega
  rw [accMid, BitVec.getLsbD_extractLsb', accJoin_bit, if_neg (by omega), h1, if_pos hi]
  simp [hi]

@[simp] theorem accLow_accJoin (e : BitVec 8) (m l : Word) : accLow (accJoin e m l) = l := by
  refine BitVec.eq_of_getLsbD_eq fun i hi => ?_
  rw [accLow, BitVec.getLsbD_extractLsb', accJoin_bit, Nat.zero_add, if_pos hi]
  simp [hi]

section Raw
variable {s t : State}

/-- The data ALU decides what the data-ALU registers hold. -/
theorem raw_d (h : t.dalu = s.dalu) (x : DReg) : t.raw (.d x) = s.raw (.d x) := by
  cases x <;> simp only [State.raw, h]

/-- The program controller, but for PC, decides what its registers hold. -/
theorem raw_c (h : t.ctl = { s.ctl with pc := t.ctl.pc }) (hp : t.plat = s.plat) (x : CtlReg) :
    t.raw (.c x) = s.raw (.c x) := by
  have hread : t.raw (.c x) = ({ s with ctl := t.ctl, plat := t.plat } : State).raw (.c x) := by cases x <;> rfl
  rw [hread, h, hp]
  cases x <;> rfl

/-- Nothing else decides what a register holds. -/
theorem raw_congr (hd : t.dalu = s.dalu) (ha : t.agu = s.agu) (hc : t.ctl = { s.ctl with pc := t.ctl.pc })
    (hp : t.plat = s.plat) (q : Reg) : t.raw q = s.raw q := by
  cases q with
  | d x => exact raw_d hd x
  | c x => exact raw_c hc hp x
  | r k | n k | m k => simp only [State.raw, State.rReg, State.nReg, State.mReg, ha]

end Raw

namespace Effect
variable {s t : State} {regs : List Reg}

/-- A write of the data ALU changes the data-ALU registers that hold something else after it. -/
theorem of_dalu {u : DAlu} (h : ∀ x, .d x ∉ regs → ({ s with dalu := u } : State).raw (.d x) = s.raw (.d x)) :
    Effect regs 0 s { s with dalu := u } := by
  refine of_registers rfl fun q hq => ?_
  cases q with
  | d x => exact h x hq
  | c x => exact raw_c (by rfl) (by rfl) x
  | r k | n k | m k => rfl

/-- A write of the program controller, SR aside, changes those of its registers that hold something else after it. -/
theorem of_ctl {c : Ctl} (hsr : c.sr = s.ctl.sr)
    (h : ∀ x, .c x ∉ regs → ({ s with ctl := c } : State).raw (.c x) = s.raw (.c x)) :
    Effect regs 0 s { s with ctl := c } := by
  refine of_registers (by simp only [← hsr]) fun q hq => ?_
  cases q with
  | d x => exact raw_d (by rfl) x
  | c x => exact h x hq
  | r k | n k | m k => rfl

theorem setAcc (d : Acc) (v : AccVal) (s : State) : Effect (accNames d) 0 s (s.setAcc d v) := by
  refine of_dalu fun x hx => ?_
  cases d <;> cases x <;> simp [accNames, State.raw, DAlu.setAcc] at hx ⊢

theorem writeD (x : DReg) (w : Word) (s : State) : Effect (writeSet (.d x)) 0 s (s.writeD x w) := by
  refine of_dalu fun y hy => ?_
  cases x <;> cases y <;> simp [writeSet, accNames, State.raw, DAlu.putD] at hy ⊢

theorem putLong (l : LOp) (hi lo : Word) (s : State) :
    Effect (longSet .toReg l) 0 s { s with dalu := s.dalu.putLong l hi lo } := by
  refine of_dalu fun x hx => ?_
  cases l <;> cases x <;> simp [longSet, accNames, State.raw, DAlu.putLong] at hx ⊢

theorem setR (k : BitVec 3) (v : Addr) (s : State) : Effect [.r k] 0 s (s.setR k v) := by
  refine of_registers rfl fun q hq => ?_
  cases q with
  | r j =>
    have hne : k.toNat ≠ j.toNat := fun h => hq (by simp [BitVec.eq_of_toNat_eq h])
    simp [State.raw, State.rReg, Vector.getElem_set_ne _ _ hne]
  | d x => exact raw_d (by rfl) x
  | c x => exact raw_c (by rfl) (by rfl) x
  | n j | m j => rfl

theorem setN (k : BitVec 3) (v : Addr) (s : State) : Effect [.n k] 0 s (s.setN k v) := by
  refine of_registers rfl fun q hq => ?_
  cases q with
  | n j =>
    have hne : k.toNat ≠ j.toNat := fun h => hq (by simp [BitVec.eq_of_toNat_eq h])
    simp [State.raw, State.nReg, Vector.getElem_set_ne _ _ hne]
  | d x => exact raw_d (by rfl) x
  | c x => exact raw_c (by rfl) (by rfl) x
  | r j | m j => rfl

theorem setM (k : BitVec 3) (v : Addr) (s : State) : Effect [.m k] 0 s (s.setM k v) := by
  refine of_registers rfl fun q hq => ?_
  cases q with
  | m j =>
    have hne : k.toNat ≠ j.toNat := fun h => hq (by simp [BitVec.eq_of_toNat_eq h])
    simp [State.raw, State.mReg, Vector.getElem_set_ne _ _ hne]
  | d x => exact raw_d (by rfl) x
  | c x => exact raw_c (by rfl) (by rfl) x
  | r j | n j => rfl

theorem setOmr (v : BitVec 8) (s : State) : Effect [.c .omr] 0 s { s with ctl := { s.ctl with omr := v } } :=
  of_ctl rfl fun x hx => by cases x <;> simp [State.raw] at hx ⊢ <;> rfl

theorem setLa (v : Addr) (s : State) : Effect [.c .la] 0 s { s with ctl := { s.ctl with la := v } } :=
  of_ctl rfl fun x hx => by cases x <;> simp [State.raw] at hx ⊢ <;> rfl

theorem setLc (v : Addr) (s : State) : Effect [.c .lc] 0 s { s with ctl := { s.ctl with lc := v } } :=
  of_ctl rfl fun x hx => by cases x <;> simp [State.raw] at hx ⊢ <;> rfl

/-- A move of SP, or a write of the stack, changes what is read through SP. -/
theorem of_stack
    (h : t = { s with
      ctl := { s.ctl with sp := t.ctl.sp, stack := t.ctl.stack }, pending := t.pending, draws := t.draws }) :
    Effect stackRegs 0 s t := by
  refine of_registers (by rw [h]) fun q hq => ?_
  cases q with
  | d x => exact raw_d (by rw [h]) x
  | c x => cases x <;> simp [stackRegs] at hq <;> rw [h] <;> rfl
  | r k | n k | m k => rw [h]; rfl

/-- An operation that touches no register. -/
theorem of_quiet
    (h : t = { s with ctl := { s.ctl with pc := t.ctl.pc }, ipr := t.ipr, bcr := t.bcr, pending := t.pending,
                      outbox := t.outbox, draws := t.draws }) : Effect [] 0 s t :=
  of_registers (by rw [h]) fun q _ => raw_congr (by rw [h]) (by rw [h]) (by rw [h]) (by rw [h]) q

theorem setPc (a : Addr) (s : State) : Effect [] 0 s (s.setPc a) := of_quiet rfl

theorem pend (q : Source) (s : State) : Effect [] 0 s (s.pend q) := of_quiet rfl

theorem tell (m : HostMsg) (s : State) : Effect [] 0 s (s.tell m) := of_quiet rfl

theorem loadData (sp : DSpace) (a : Addr) (s : State) : Effect [] 0 s (s.loadData sp a).2 := by
  rw [loadData_state]
  exact of_quiet rfl

/-- A write of memory keeps the canonical form of the memories. -/
theorem poke (sp : Space) (a : Addr) (v : Word) (s : State) : Effect [] 0 s (s.poke sp a v) := by
  refine iff_parts.2 ⟨fun q _ => raw_congr rfl rfl rfl rfl q, id, fun _ _ _ => rfl, fun h => ?_,
    ⟨rfl, rfl, rfl, rfl, rfl, rfl⟩, fun h => ⟨h, rfl⟩, fun h => .inl ⟨h, rfl⟩⟩
  simp only [State.memLegal, Bool.and_eq_true, and_assoc] at h ⊢
  exact Mems.put_write_wf s.mem sp a v h

theorem storeData (sp : DSpace) (a : Addr) (v : Word) (s : State) : Effect [] 0 s (s.storeData sp a v) := by
  unfold State.storeData
  split
  · split
    · exact of_quiet rfl
    · split
      · exact of_quiet rfl
      · exact tell _ s
  · exact poke _ a v s

/-! The stack. -/

theorem incSp (s : State) : Effect stackRegs 0 s s.incSp :=
  of_stack (by rw [incSp_state])

theorem decSp (s : State) : Effect stackRegs 0 s s.decSp :=
  of_stack (by unfold State.decSp; split <;> rfl)

theorem setSsTop (v : Addr × Addr) (s : State) : Effect stackRegs 0 s (s.setSsTop v) :=
  of_stack (by unfold State.setSsTop; split <;> rfl)

theorem ssTop (s : State) : Effect [] 0 s s.ssTop.2 :=
  of_quiet (by unfold State.ssTop; split <;> rfl)

theorem push (hi lo : Addr) (s : State) : Effect stackRegs 0 s (s.push hi lo) := (incSp s).trans (setSsTop _ _)

theorem writeSsh (v : Addr) (s : State) : Effect stackRegs 0 s (s.writeSsh v) := (incSp s).trans (setSsTop _ _)

theorem pull (s : State) : Effect stackRegs 0 s s.pull.2 := (ssTop s).seq (decSp _)

theorem readSsh (s : State) : Effect stackRegs 0 s s.readSsh.2 := (ssTop s).seq (decSp _)

/-- A write of the low half keeps the high half of the location in use. -/
theorem writeSsl (v : Addr) (s : State) : Effect [.c .ssl] 0 s (s.writeSsl v) := by
  unfold State.writeSsl State.setSsTop
  split
  · next hon =>
    refine of_ctl rfl fun x hx => ?_
    cases x <;> simp [State.raw] at hx ⊢
    case ssh =>
      have hon' : ∀ k, ({ s with ctl := { s.ctl with stack := k } } : State).onStack = true := fun _ => hon
      simp only [State.raw.stackHalves, hon', if_true, State.ssPair, State.ssLoc, Vector.getElem_set_self]
  · exact (refl s).mono (by simp) (bitsIn_zero _)

/-! The status register. -/

/-- A write of SR changes the status bits that it gives otherwise. -/
theorem setSr {bits v : BitVec 16} {s : State}
    (h : ∀ k < 16, bits.getLsbD k = false → v.getLsbD k = s.ctl.sr.getLsbD k) : Effect [.c .sr] bits s (s.setSr v) := by
  refine iff_parts.2 ⟨fun q hq => ?raw, fun _ => by simp [State.srLegal, BitVec.and_assoc], fun hs k hk => ?status, id,
    ⟨rfl, rfl, rfl, rfl, rfl, rfl⟩, fun h => ⟨h, rfl⟩, fun h => .inl ⟨h, rfl⟩⟩
  case raw =>
    cases q with
    | d x => exact raw_d (by rfl) x
    | c x => cases x <;> simp at hq <;> rfl
    | r k | n k | m k => rfl
  case status =>
    by_cases hlt : k < 16
    · simp only [State.srLegal, beq_iff_eq] at hs
      rw [State.setSr_ctl, BitVec.getLsbD_and, h k hlt hk, ← BitVec.getLsbD_and, hs]
    · rw [BitVec.getLsbD_of_ge _ _ (by omega), BitVec.getLsbD_of_ge _ _ (by omega)]

/-- Any write of SR. -/
theorem setSr_any (v : BitVec 16) (s : State) : Effect [.c .sr] 0xFFFF s (s.setSr v) :=
  setSr fun k hk h => by interval_cases k <;> simp at h

end Effect
end Sys2Proof.Machine
end

section
/-! The frames of the flags, the operands and the moves. -/

namespace Sys2Proof.Machine

/-! ### Flags -/

/-- The status bits that an update of the flags may change; L is one of them only where V comes out as 1. -/
def flagBits (f : FlagUpdate) : BitVec 16 :=
  withCcr 0 {
    s := false, l := f.v.getD false, e := f.e.isSome, u := f.u.isSome, n := f.n.isSome, z := f.z.isSome
    v := f.v.isSome, c := f.c.isSome }

namespace Effect
variable {s t : State}

/-- A write of the CCR changes the bits of the flags that come out otherwise. -/
theorem setCcr {bits : BitVec 16} {k : Ccr} {s : State}
    (hc : bits.getLsbD 0 = false → k.c = s.ccr.c) (hv : bits.getLsbD 1 = false → k.v = s.ccr.v)
    (hz : bits.getLsbD 2 = false → k.z = s.ccr.z) (hn : bits.getLsbD 3 = false → k.n = s.ccr.n)
    (hu : bits.getLsbD 4 = false → k.u = s.ccr.u) (he : bits.getLsbD 5 = false → k.e = s.ccr.e)
    (hl : bits.getLsbD 6 = false → k.l = s.ccr.l) (hs : bits.getLsbD 7 = false → k.s = s.ccr.s) :
    Effect [.c .sr] bits s (s.setCcr k) := by
  refine setSr fun i hi hb => ?_
  obtain ⟨k0, k1, k2, k3, k4, k5, k6, k7⟩ := ccr_bits k
  rw [withCcr_bit]
  by_cases h8 : i < 8
  · rw [if_pos h8]
    interval_cases i
    · exact k0.trans (hc hb)
    · exact k1.trans (hv hb)
    · exact k2.trans (hz hb)
    · exact k3.trans (hn hb)
    · exact k4.trans (hu hb)
    · exact k5.trans (he hb)
    · exact k6.trans (hl hb)
    · exact k7.trans (hs hb)
  · simp [h8, hi]

theorem setFlags (f : FlagUpdate) (s : State) : Effect [.c .sr] (flagBits f) s (s.setFlags f) := by
  obtain ⟨fe, fu, fn, fz, fv, fc⟩ := f
  refine setCcr (fun h => ?c) (fun h => ?v) (fun h => ?z) (fun h => ?n) (fun h => ?u) (fun h => ?e) (fun h => ?l)
    (fun _ => rfl) <;>
    simp only [flagBits, withCcr_bit, ccr_bits, Nat.reduceLT, if_true] at h
  case l => cases fv <;> simp_all [Ccr.update]
  all_goals simp_all [Ccr.update]

theorem setC (b : Bool) (s : State) : Effect [.c .sr] 0x0001 s (s.setC b) :=
  (setFlags { c := some b } s).mono (List.Subset.refl _) (bitsIn_of_or (by simp [flagBits, withCcr, Ccr.bits]))

/-- A read through the limiter changes S and L (10_state.md R35, R66). -/
theorem limited (m : ScaleMode) (v : AccVal) (s : State) : Effect [.c .sr] 0x00C0 s (s.limited m v) :=
  setCcr (fun _ => rfl) (fun _ => rfl) (fun _ => rfl) (fun _ => rfl) (fun _ => rfl) (fun _ => rfl)
    (fun h => by simp at h) (fun h => by simp at h)

/-- A bit instruction's read through the limiter changes L (47_nonparallel_encoding_only.md R445). -/
theorem limitedL (m : ScaleMode) (v : AccVal) (s : State) : Effect [.c .sr] 0x0040 s (s.limitedL m v) :=
  setCcr (fun _ => rfl) (fun _ => rfl) (fun _ => rfl) (fun _ => rfl) (fun _ => rfl) (fun _ => rfl)
    (fun h => by simp at h) (fun _ => rfl)

/-! ### Registers as operands -/

theorem readLimited {d : Acc} {v : Word} (h : s.readLimited d = .ok (v, t)) : Effect [.c .sr] 0x00C0 s t := by
  unfold State.readLimited at h
  split at h
  · cases h
  · cases h
    exact limited _ _ s

theorem readD {x : DReg} {v : Word} (h : s.readD x = .ok (v, t)) :
    Effect (readSet (.d x)) (readBits (.d x)) s t := by
  cases x
  case a | b => exact readLimited h
  all_goals
    cases h
    exact refl s

theorem readCtl (x : CtlReg) (s : State) : Effect (readSet (.c x)) 0 s (s.readCtl x).2 := by
  cases x
  case ssh => exact readSsh s
  case ssl => exact ssTop s
  all_goals exact refl s

theorem readReg {r : Reg} {v : Word} (h : s.readReg r = .ok (v, t)) : Effect (readSet r) (readBits r) s t := by
  cases r with
  | d x => exact readD h
  | c x =>
    injection h with h
    have hread : Effect (readSet (.c x)) 0 s t := by simpa only [h] using readCtl x s
    exact hread
  | r k | n k | m k =>
    cases h
    exact refl s

theorem writeCtl (x : CtlReg) (w : Word) (s : State) :
    Effect (writeSet (.c x)) (writeBits (.c x)) s (s.writeCtl x w) := by
  cases x with
  | sr => exact setSr_any _ s
  | omr => exact setOmr _ s
  | sp => exact of_stack rfl
  | ssh => exact writeSsh _ s
  | ssl => exact writeSsl _ s
  | la => exact setLa _ s
  | lc => exact setLc _ s

theorem writeReg (r : Reg) (w : Word) (s : State) : Effect (writeSet r) (writeBits r) s (s.writeReg r w) := by
  cases r with
  | d x => exact writeD x w s
  | r k => exact setR k _ s
  | n k => exact setN k _ s
  | m k => exact setM k _ s
  | c x => exact writeCtl x w s

theorem readBitAcc {d : Acc} {v : Word} (h : s.readBitAcc d = .ok (v, t)) : Effect [.c .sr] 0x0040 s t := by
  unfold State.readBitAcc at h
  split at h
  · cases h
  · cases h
    exact limitedL _ _ s

theorem readBitReg {r : Reg} {v : Word} (h : s.readBitReg r = .ok (v, t)) :
    Effect (readSet r) (bitReadBits r) s t := by
  cases r with
  | d x =>
    cases x
    case a | b => exact readBitAcc h
    all_goals
      cases h
      exact refl s
  | r k | n k | m k | c x => exact readReg h

/-! ### Addresses and memory operands -/

theorem resolveInd {i : Ind} {a : Addr} (h : s.resolveInd i = .ok (a, t)) : Effect (indSet i) 0 s t := by
  obtain ⟨mode, k⟩ := i
  cases hstep : s.stepped mode k with
  | error f => simp [State.resolveInd, hstep] at h
  | ok v =>
    simp only [State.resolveInd, hstep] at h
    cases mode <;> cases h
    case noUpdate.refl | indexed.refl => exact refl s
    all_goals exact setR k _ s

theorem resolve {ea : Ea} {a : Addr} (h : s.resolve ea = .ok (a, t)) : Effect (eaSet ea) 0 s t := by
  cases ea with
  | ind i => exact resolveInd h
  | abs b =>
    cases h
    exact refl s

theorem loadEa {sp : DSpace} {src : EaImm} {v : Word} (h : s.loadEa sp src = .ok (v, t)) :
    Effect (xferSet (.toReg src)) 0 s t := by
  cases src with
  | imm w =>
    cases h
    exact refl s
  | mem ea =>
    simp only [State.loadEa] at h
    split at h
    · cases h
    · next a u hu =>
      injection h with h
      have hload : Effect [] 0 u t := by simpa only [h] using loadData sp a u
      exact ((resolve hu).seq hload).mono (by simp [xferSet]) (bitsIn_refl _)

theorem storeEa {sp : DSpace} {ea : Ea} {v : Word} (h : s.storeEa sp ea v = .ok t) : Effect (eaSet ea) 0 s t := by
  simp only [State.storeEa] at h
  split at h
  · cases h
  · next a u hu =>
    cases h
    exact ((resolve hu).seq (storeData sp a v u)).mono (by simp) (bitsIn_refl _)

/-! ### Pieces of a move -/

theorem fetchSide {sp : DSpace} {w : Dir} {r : Reg} {a : Addr} {v : Word} (h : s.fetchSide sp w r a = .ok (v, t)) :
    Effect (dirSet w r) (dirBits w r) s t := by
  cases w with
  | toReg =>
    injection h with h
    have hload : Effect [] 0 s t := by simpa only [h] using loadData sp a s
    exact hload.mono (by simp) (bitsIn_zero _)
  | toMem => exact readReg h

theorem storeSide (sp : DSpace) (w : Dir) (r : Reg) (a : Addr) (v : Word) (s : State) :
    Effect (dirSet w r) (dirBits w r) s (s.storeSide sp w r a v) := by
  cases w with
  | toReg => exact writeReg r v s
  | toMem => exact (storeData sp a v s).mono (by simp) (bitsIn_zero _)

theorem moveAt {sp : DSpace} {w : Dir} {a : Addr} {r : Reg} (h : s.moveAt sp w a r = .ok t) :
    Effect (dirSet w r) (dirBits w r) s t := by
  simp only [State.moveAt] at h
  split at h
  · cases h
  · next v u hu =>
    cases h
    exact (fetchSide hu).trans (storeSide sp w r a v u)

theorem moveEa {sp : DSpace} {x : Xfer} {r : Reg} (h : s.moveEa sp x r = .ok t) :
    Effect (dirSet (xferDir x) r ++ xferSet x) (dirBits (xferDir x) r) s t := by
  cases x with
  | toReg src =>
    simp only [State.moveEa] at h
    split at h
    · cases h
    · next v u hu =>
      cases h
      exact ((loadEa hu).seq (writeReg r v u)).mono (by simp [xferDir, dirSet])
        (by simp [bitsIn_refl, xferDir, dirBits])
  | toMem ea =>
    simp only [State.moveEa] at h
    split at h
    · cases h
    · next v u hu =>
      exact ((readReg hu).seq (storeEa h)).mono (by simp [xferDir, xferSet, dirSet])
        (by simp [bitsIn_refl, xferDir, dirBits])

end Effect
end Sys2Proof.Machine
end

section
/-! The frames of the move fields and of class P instructions. -/

namespace Sys2Proof.Machine
namespace Effect
variable {s t : State}

/-! ### Long moves -/

theorem readLong {l : LOp} {v : Word × Word} (h : s.readLong l = .ok (v, t)) (aa : BitVec 6) :
    Effect (longSet .toMem l) (moveBits (.lAa .toMem aa l)) s t := by
  have hacc {d : Acc} (h : State.readLong.readAcc s d = .ok (v, t)) : Effect [.c .sr] 0x00C0 s t := by
    unfold State.readLong.readAcc at h
    split at h
    · cases h
    · cases h
      exact limited _ _ s
  have hboth {d e : Acc} (h : State.readLong.readBoth s d e = .ok (v, t)) : Effect [.c .sr] 0x00C0 s t := by
    unfold State.readLong.readBoth at h
    split at h
    · cases h
    · next x u hx =>
      split at h
      · cases h
      · next y w hy =>
        cases h
        exact (readLimited hx).trans (readLimited hy)
  cases l
  case a | b => exact hacc h
  case ab | ba => exact hboth h
  all_goals
    cases h
    exact refl s

theorem loadLong (a : Addr) (l : LOp) (s : State) : Effect (longSet .toReg l) 0 s (s.loadLong a l) :=
  ((loadData .x a s).seq (loadData .y a _)).seq (putLong l _ _ _)

theorem storeLong (a : Addr) (v : Word × Word) (s : State) : Effect [] 0 s (s.storeLong a v) :=
  (storeData .x a v.1 s).trans (storeData .y a v.2 _)

/-! ### Move fields -/

theorem moveXY {wx wy : Dir} {ee : XReg} {ff : YReg} {ix iy : Ind} (h : s.moveXY wx ee ix wy ff iy = .ok t) :
    Effect (dirSet wx (.d ee.toDReg) ++ dirSet wy (.d ff.toDReg) ++ indSet ix ++ indSet iy)
      (dirBits wx (.d ee.toDReg) ||| dirBits wy (.d ff.toDReg)) s t := by
  unfold State.moveXY at h
  split at h
  · cases h
  next ax s1 hx =>
  split at h
  · cases h
  next ay s2 hy =>
  split at h
  · cases h
  next vx s3 hvx =>
  split at h
  · cases h
  next vy s4 hvy =>
  cases h
  have haddr := (resolveInd hx).seq (resolveInd hy)
  have hread := (fetchSide hvx).seq (fetchSide hvy)
  have hwrite := (storeSide .x wx (.d ee.toDReg) ax vx s4).seq (storeSide .y wy (.d ff.toDReg) ay vy _)
  exact (haddr.seq (hread.trans hwrite)).mono (fun q => by simp only [List.mem_append]; tauto)
    (by simp [bitsIn_refl])

/-- A register moved beside a memory transfer (class I). -/
theorem moveClassOne {sp : DSpace} {x : Xfer} {r : Reg} {d : Acc} {f : DReg} {v : Word} {u w : State}
    (hf : writeSet (.d f) = [.d f]) (hd : s.readLimited d = .ok (v, u)) (hx : u.moveEa sp x r = .ok w)
    (hr : bitsIn (dirBits (xferDir x) r) 0x00C0) :
    Effect (.c .sr :: .d f :: (dirSet (xferDir x) r ++ xferSet x)) 0x00C0 s (w.writeD f v) :=
  (((readLimited hd).seq (moveEa hx)).seq (writeD f v w)).mono
    (fun q => by simp only [hf, List.mem_append, List.mem_cons]; tauto)
    (by simpa [bitsIn_or_iff, bitsIn_refl] using hr)

/-- An accumulator stored and written again (class II). -/
theorem moveClassTwo {sp : DSpace} {ea : Ea} {d : Acc} {v x : Word} {u w : State}
    (hd : s.readLimited d = .ok (v, u)) (hw : u.storeEa sp ea v = .ok w) :
    Effect (.c .sr :: (accNames d ++ eaSet ea)) 0x00C0 s (w.writeD d.toDReg x) :=
  have hnames : writeSet (.d d.toDReg) = accNames d := by cases d <;> rfl
  (((readLimited hd).seq (storeEa hw)).seq (writeD d.toDReg x w)).mono (by simp [hnames]) (by simp [bitsIn_refl])

/-- The data-ALU registers have the status bits S and L at most. -/
theorem dirBits_d (w : Dir) (x : DReg) : bitsIn (dirBits w (.d x)) 0x00C0 := by
  cases w <;> cases x <;> exact bitsIn_of_or (by rfl)

theorem runMove {mv : ParMove} (h : s.runMove mv = .ok t) : Effect (moveSet mv) (moveBits mv) s t := by
  cases mv with
  | none =>
    cases h
    exact refl s
  | imm dst i =>
    cases h
    have hbits : writeBits dst.toReg = 0 := by cases dst <;> rfl
    exact (writeReg dst.toReg _ s).mono (List.Subset.refl _) (hbits ▸ bitsIn_zero _)
  | reg src dst =>
    simp only [State.runMove] at h
    split at h
    · cases h
    next v u hv =>
    cases h
    have hbits : writeBits dst.toReg = 0 := by cases dst <;> rfl
    exact ((readReg hv).seq (writeReg dst.toReg v u)).mono (List.Subset.refl _) (by simp [hbits, moveBits, bitsIn_refl])
  | upd mm r =>
    simp only [State.runMove] at h
    split at h
    · cases h
    cases h
    exact setR r _ s
  | xEa x r | yEa x r => exact moveEa h
  | xAa w aa r | yAa w aa r => exact moveAt h
  | lEa w ea l =>
    cases w with
    | toReg =>
      simp only [State.runMove] at h
      split at h
      · cases h
      next a u hu =>
      cases h
      exact ((resolve hu).seq (loadLong a l u)).mono (by simp [moveSet]) (bitsIn_refl _)
    | toMem =>
      simp only [State.runMove] at h
      split at h
      · cases h
      next v u hv =>
      split at h
      · cases h
      next a w hw =>
      cases h
      exact (((readLong hv 0).seq (resolve hw)).seq (storeLong a v w)).mono (by simp [moveSet])
        (by simp [moveBits, bitsIn_refl])
  | lAa w aa l =>
    cases w with
    | toReg =>
      cases h
      exact loadLong _ l s
    | toMem =>
      simp only [State.runMove] at h
      split at h
      · cases h
      next v u hv =>
      cases h
      exact ((readLong hv aa).seq (storeLong _ v u)).mono (by simp [moveSet]) (by simp [bitsIn_refl])
  | xr ee x d f =>
    simp only [State.runMove] at h
    split at h
    · cases h
    next v u hv =>
    split at h
    · cases h
    next w hw =>
    cases h
    exact moveClassOne (by cases f <;> rfl) hv hw (dirBits_d _ _)
  | ry d e ff x =>
    simp only [State.runMove] at h
    split at h
    · cases h
    next v u hv =>
    split at h
    · cases h
    next w hw =>
    cases h
    exact moveClassOne (by cases e <;> rfl) hv hw (dirBits_d _ _)
  | xr2 d ea | ry2 d ea =>
    simp only [State.runMove] at h
    split at h
    · cases h
    next v u hv =>
    split at h
    · cases h
    next w hw =>
    cases h
    exact moveClassTwo hv hw
  | xy wx ee mx rx wy ff my ry => exact moveXY h

/-! ### The end of an instruction -/

theorem advance (n : Nat) (s : State) : Effect [] 0 s (s.advance n) := by
  unfold State.advance
  cases hv : s.vec with
  | none => exact setPc _ s
  | some v =>
    have hsome : s.vec ≠ none := by simp [hv]
    exact iff_parts.2 ⟨fun q _ => raw_congr rfl rfl rfl rfl q, id, fun _ _ _ => rfl, id,
      ⟨rfl, rfl, rfl, rfl, rfl, rfl⟩, fun h => absurd h hsome, fun _ => .inl ⟨Option.some_ne_none _, rfl⟩⟩

end Effect

/-! ### Class P instructions (42_arithmetic.md R290) -/

/-- The registers of a data-ALU operation's destination. -/
def dstRegs : Option Acc → List Reg
  | none => []
  | some d => accNames d

/-- A data-ALU operation writes `dst`, and of the status bits `bits`, where SR is among `flags`. -/
abbrev AluOut.Within (o : AluOut) (dst : Option Acc) (flags : List Reg) (bits : BitVec 16) : Prop :=
  o.dst.map Prod.fst = dst ∧ ∀ f, o.flags = some f → .c .sr ∈ flags ∧ bitsIn (flagBits f) bits

theorem Effect.putAlu {o : AluOut} {dst : Option Acc} {flags : List Reg} {bits : BitVec 16}
    (h : o.Within dst flags bits) (s : State) : Effect (dstRegs dst ++ flags) bits s (s.putAlu o) := by
  obtain ⟨odst, oflags⟩ := o
  obtain ⟨rfl, hflags⟩ := h
  have hset (t : State) (f : FlagUpdate) (hf : oflags = some f) : Effect flags bits t (t.setFlags f) :=
    (Effect.setFlags f t).mono (by simp [(hflags f hf).1]) (hflags f hf).2
  have hacc : ∀ d v, odst = some (d, v) → Effect (accNames d) bits s (s.setAcc d v) := fun d v _ =>
    (Effect.setAcc d v s).mono (List.Subset.refl _) (bitsIn_zero _)
  cases odst with
  | none =>
    cases oflags with
    | none => exact (Effect.refl s).mono (by simp) (bitsIn_zero _)
    | some f => exact hset s f rfl
  | some p =>
    obtain ⟨d, v⟩ := p
    cases oflags with
    | none => exact (hacc d v rfl).mono (by simp [dstRegs]) (bitsIn_refl _)
    | some f => exact ((hacc d v rfl).seq (hset _ f rfl)).mono (by simp [dstRegs]) (by simp [bitsIn_refl])

/-- What every outcome of a data-ALU operation writes. -/
def AluWithin (alu : State → Except Fault AluOut) (dst : Option Acc) (flags : List Reg) (bits : BitVec 16) : Prop :=
  ∀ s o, alu s = .ok o → o.Within dst flags bits

theorem aluWithin_withScale {f : ScaleMode → State → AluOut} {dst : Option Acc} {flags : List Reg}
    {bits : BitVec 16} (h : ∀ m s, (f m s).Within dst flags bits) : AluWithin (withScale f) dst flags bits := by
  intro s o ho
  unfold withScale at ho
  split at ho
  · cases ho
  · cases ho
    exact h _ s

theorem Effect.parallel {alu : State → Except Fault AluOut} {dst : Option Acc} {flags : List Reg} {bits : BitVec 16}
    (halu : AluWithin alu dst flags bits) {mv : ParMove} {s t : State} (h : parallel alu mv s = .next t) :
    Effect (moveSet mv ++ dstRegs dst ++ flags) (moveBits mv ||| bits) s t := by
  obtain ⟨o, u, ho, hu, rfl⟩ := (parallel_next alu mv s t).1 h
  exact ((Effect.runMove hu).seq ((Effect.putAlu (halu s o ho) u).seq (Effect.advance _ _))).mono (by simp)
    (by simp [bitsIn_refl])

theorem Effect.moveOnly {mv : ParMove} {s t : State} (h : moveOnly mv s = .next t) :
    Effect (moveSet mv ++ [] ++ []) (moveBits mv ||| 0) s t := by
  unfold Machine.moveOnly at h
  split at h
  · cases h
  next u hu =>
  cases h
  exact ((Effect.runMove hu).seq (Effect.advance _ u)).mono (by simp) (by simp [bitsIn_refl])

end Sys2Proof.Machine
end

section
/-! The frame of every instruction: `exec_completes` names the registers, the status bits and the run state that an
instruction may change, and the frames of the statements are read off it. -/

namespace Sys2Proof.Machine
namespace Effect
variable {s t u : State} {regs : List Reg} {bits : BitVec 16} {i : Instr}

/-! ### Class P instructions by their operation -/

section Alu
variable {d : Acc} {q : Sum56} {m : ScaleMode} {r : AccVal} {v : Bool}

theorem sumOut_within (d : Acc) (q : Sum56) (m : ScaleMode) : (sumOut d q m).Within (some d) [.c .sr] 0x007F :=
  ⟨rfl, fun f hf => by
    cases hf
    exact ⟨by simp, bitsIn_of_or (by cases q.v <;> simp [flagBits, withCcr, Ccr.bits, arithFlags])⟩⟩

/-- Where V comes out as 0, L stays. -/
theorem sumOut_within_of_no_overflow (d : Acc) (m : ScaleMode) (hv : q.v = false) :
    (sumOut d q m).Within (some d) [.c .sr] 0x003F :=
  ⟨rfl, fun f hf => by
    cases hf
    exact ⟨by simp, bitsIn_of_or (by simp [flagBits, withCcr, Ccr.bits, arithFlags, hv])⟩⟩

theorem cmpOut_within (q : Sum56) (m : ScaleMode) : (cmpOut q m).Within none [.c .sr] 0x007F :=
  ⟨rfl, fun f hf => by
    cases hf
    exact ⟨by simp, bitsIn_of_or (by cases q.v <;> simp [flagBits, withCcr, Ccr.bits, arithFlags])⟩⟩

theorem keepC_within (d : Acc) (r : AccVal) (v : Bool) (m : ScaleMode) :
    (keepC d r v m).Within (some d) [.c .sr] 0x007E :=
  ⟨rfl, fun f hf => by
    cases hf
    exact ⟨by simp, bitsIn_of_or (by cases v <;> simp [flagBits, withCcr, Ccr.bits, arithFlags])⟩⟩

/-- Where V comes out as 0, L stays. -/
theorem keepC_within_of_no_overflow (d : Acc) (r : AccVal) (m : ScaleMode) :
    (keepC d r false m).Within (some d) [.c .sr] 0x003E :=
  ⟨rfl, fun f hf => by
    cases hf
    exact ⟨by simp, bitsIn_of_or (by simp [flagBits, withCcr, Ccr.bits, arithFlags])⟩⟩

theorem logicOut_within (d : Acc) (old : AccVal) (w : Word) : (logicOut d old w none).Within (some d) [.c .sr] 0x000E :=
  ⟨rfl, fun f hf => by
    cases hf
    exact ⟨by simp, bitsIn_of_or (by simp [flagBits, withCcr, Ccr.bits, logicFlags])⟩⟩

theorem logicOut_within_carry (d : Acc) (old : AccVal) (w : Word) (c : Bool) :
    (logicOut d old w (some c)).Within (some d) [.c .sr] 0x000F :=
  ⟨rfl, fun f hf => by
    cases hf
    exact ⟨by simp, bitsIn_of_or (by simp [flagBits, withCcr, Ccr.bits, logicFlags])⟩⟩

theorem aluTfr_within (d : Acc) (x : State → AccVal) : AluWithin (aluTfr d x) (some d) [] 0 :=
  aluWithin_withScale fun _ _ => ⟨rfl, fun f hf => by cases hf⟩

/-- A rotation gives C. -/
theorem aluRotate_within (d : Acc) {f : Word → State → Word × Option Bool} (hf : ∀ w s, (f w s).2.isSome = true) :
    AluWithin (aluRotate d f) (some d) [.c .sr] 0x000F := fun s o ho => by
  obtain ⟨c, hc⟩ := Option.isSome_iff_exists.1 (hf (accMid (s.acc d)) s)
  cases ho
  simp only [midOut, hc]
  exact logicOut_within_carry d _ _ c

theorem test_within (d : Acc) :
    AluWithin (withScale fun m s => { flags := some (arithFlags m (s.acc d) false none) }) none [.c .sr] 0x003E :=
  aluWithin_withScale fun _ _ => ⟨rfl, fun f hf => by
    cases hf
    exact ⟨by simp, bitsIn_of_or (by simp [flagBits, withCcr, Ccr.bits, arithFlags])⟩⟩

theorem clear_within (d : Acc) :
    AluWithin (withScale fun _ _ => {
      dst := some (d, 0)
      flags := some { e := some false, u := some true, n := some false, z := some true, v := some false } })
      (some d) [.c .sr] 0x003E :=
  aluWithin_withScale fun _ _ => ⟨rfl, fun f hf => by
    cases hf
    exact ⟨by simp, bitsIn_of_or (by simp [flagBits, withCcr, Ccr.bits])⟩⟩

theorem divide_within {dst : Option (Acc × AccVal)} {v c : Bool} (h : dst.map Prod.fst = some d) :
    AluOut.Within { dst := dst, flags := some { v := some v, c := some c } } (some d) [.c .sr] 0x0043 :=
  ⟨h, fun f hf => by
    cases hf
    exact ⟨by simp, bitsIn_of_or (by cases v <;> simp [flagBits, withCcr, Ccr.bits])⟩⟩

theorem aluOnly {alu : State → Except Fault AluOut} {dst : Option Acc} {flags : List Reg}
    (halu : AluWithin alu dst flags bits) (h : aluOnly alu s = .next t) : Effect (dstRegs dst ++ flags) bits s t := by
  unfold Machine.aluOnly at h
  split at h
  · cases h
  next o ho =>
  cases h
  exact ((putAlu (halu s o ho) s).seq (advance 1 _)).mono (by simp) (by simp [bitsIn_refl])

theorem execDiv {w : WReg} (h : execDiv w d s = .next t) : Effect (.c .sr :: accNames d) 0x0043 s t :=
  (aluOnly (aluWithin_withScale fun _ _ => divide_within rfl) h).mono (fun q => by simp [dstRegs]; tauto)
    (bitsIn_refl _)

theorem execInc (h : execInc d s = .next t) : Effect (.c .sr :: accNames d) 0x007F s t :=
  (aluOnly (aluWithin_withScale fun _ _ => sumOut_within d _ _) h).mono (fun q => by simp [dstRegs]; tauto)
    (bitsIn_refl _)

theorem execDec (h : execDec d s = .next t) : Effect (.c .sr :: accNames d) 0x007F s t :=
  (aluOnly (aluWithin_withScale fun _ _ => sumOut_within d _ _) h).mono (fun q => by simp [dstRegs]; tauto)
    (bitsIn_refl _)

end Alu

/-! ### Jumps -/

theorem jump (n : Nat) (a : Addr) (s : State) : Effect [] 0 s (s.jump n a) := (advance n s).trans (setPc a _)

theorem jumpIf (b : Bool) (n : Nat) (a : Addr) (s : State) : Effect [] 0 s (s.jumpIf b n a) := by
  cases b
  · exact advance n s
  · exact jump n a s

/-- The vector in progress given up for a long interrupt. -/
theorem leaveVector (hv : s.vec ≠ none) : Effect [] 0 s { s with vec := none, proc := .normal } :=
  iff_parts.2 ⟨fun q _ => raw_congr rfl rfl rfl rfl q, id, fun _ _ _ => rfl, id, ⟨rfl, rfl, rfl, rfl, rfl, rfl⟩,
    fun h => absurd h hv, fun _ => .inr ⟨rfl, rfl⟩⟩

/-- The entry of a long interrupt keeps the CCR and bit 12 (60_exceptions.md R510). -/
theorem longSr_bit (level : BitVec 2) (sr : BitVec 16) (k : Nat) (hk : k < 16)
    (h : (0xEF00#16).getLsbD k = false) : (longSr level sr).getLsbD k = sr.getLsbD k := by
  interval_cases k <;> simp at h <;> simp [longSr]

theorem longInterrupt (v : VecState) (target : Addr) (saved : BitVec 16) (hv : s.vec ≠ none) :
    Effect (.c .sr :: stackRegs) (callBits s) s (s.longInterrupt v target saved) := by
  have hbits : callBits s = 0xEF00 := if_pos (Option.isSome_iff_ne_none.2 hv)
  have hpush := push s.ctl.pc saved s
  have hsr : (s.push s.ctl.pc saved).ctl.sr = s.ctl.sr := by
    rw [State.push, incSp_state]
    unfold State.setSsTop
    split <;> rfl
  have hset : Effect [.c .sr] 0xEF00 _ ((s.push s.ctl.pc saved).setSr (longSr v.level s.ctl.sr)) :=
    setSr fun k hk h => by rw [hsr, longSr_bit _ _ k hk h]
  have hvec : ((s.push s.ctl.pc saved).setSr (longSr v.level s.ctl.sr)).vec ≠ none := by
    have hsame : (s.push s.ctl.pc saved).vec = s.vec := by
      rw [State.push, incSp_state]
      unfold State.setSsTop
      split <;> rfl
    rw [State.setSr_vec, hsame]
    exact hv
  rw [hbits]
  exact (((hpush.seq hset).seq (setPc target _)).seq (leaveVector hvec)).mono (by simp) (by simp [bitsIn_refl])

theorem call {n : Nat} {target : Addr} {saved : BitVec 16} (h : s.call n target saved = .ok t) :
    Effect (.c .sr :: stackRegs) (callBits s) s t := by
  unfold State.call at h
  split at h
  · cases h
  · cases hv : s.vec with
    | none =>
      simp only [hv] at h
      cases h
      exact ((push _ saved s).seq (setPc target _)).mono (by simp) (bitsIn_zero _)
    | some v =>
      simp only [hv] at h
      cases h
      exact longInterrupt v target saved (by simp [hv])

theorem callIf {b : Bool} {n : Nat} {target : Addr} {saved : BitVec 16} (h : s.callIf b n target saved = .ok t) :
    Effect (.c .sr :: stackRegs) (callBits s) s t := by
  cases b with
  | true => exact call h
  | false =>
    cases h
    exact (advance n s).mono (by simp) (bitsIn_zero _)

/-- JMP, Jcc, JSR and JScc with an effective address: the operand, and then the jump. -/
theorem thenJump {u : State} {ea : Ea} {a : Addr} {regs' : List Reg} (hu : s.resolve ea = .ok (a, u))
    (h : Effect regs' bits u t) : Effect (regs' ++ eaSet ea) bits s t :=
  ((resolve hu).seq h).mono (by simp) (by simp [bitsIn_refl])

/-- A jump ends no vector that was not in progress before its operand was read. -/
theorem callBits_in (h : Effect regs bits s t) : bitsIn (callBits t) (callBits s) := by
  cases hv : s.vec with
  | none => simp [callBits, hv, (h.outside hv).1, bitsIn_refl]
  | some v =>
    have hs : callBits s = 0xEF00 := by simp [callBits, hv]
    rw [hs]
    unfold callBits
    split
    · exact bitsIn_refl _
    · exact bitsIn_zero _

/-- An operand's effect before that of the subroutine jump. -/
theorem thenCall (h : Effect regs bits s u) (h' : Effect (.c .sr :: stackRegs) (callBits u) u t) :
    Effect (.c .sr :: (stackRegs ++ regs)) (callBits s ||| bits) s t :=
  (h.mono (by simp) (bitsIn_or_right (bitsIn_refl _) _)).trans
    (h'.mono (by simp) (bitsIn_or_left h.callBits_in _))

theorem endJump {r : Except Fault State} (hr : ∀ u, r = .ok u → Effect regs bits s u)
    (h : endJump r = .next t) : Effect regs bits s t := by
  cases r with
  | error f => cases h
  | ok u =>
    cases h
    exact hr _ rfl

theorem jumpEa {ea : Ea} (h : execJmpEa ea s = .next t) : Effect (eaSet ea) 0 s t := by
  refine endJump (fun u hu => ?_) h
  split at hu
  · cases hu
  next a w hw =>
  cases hu
  exact thenJump hw (jump _ a w)

theorem jumpIfEa {k : Cond} {ea : Ea} (h : execJccEa k ea s = .next t) : Effect (eaSet ea) 0 s t := by
  refine endJump (fun u hu => ?_) h
  split at hu
  · cases hu
  next a w hw =>
  cases hu
  exact thenJump hw (jumpIf _ _ a w)

theorem callEa {ea : Ea} (h : execJsrEa ea s = .next t) :
    Effect (.c .sr :: (stackRegs ++ eaSet ea)) (callBits s) s t := by
  refine endJump (fun u hu => ?_) h
  split at hu
  · cases hu
  next a w hw =>
  exact ((resolve hw).thenCall (call hu)).mono (List.Subset.refl _) (by simp [bitsIn_refl])

theorem callIfEa {k : Cond} {ea : Ea} (h : execJsccEa k ea s = .next t) :
    Effect (.c .sr :: (stackRegs ++ eaSet ea)) (callBits s) s t := by
  refine endJump (fun u hu => ?_) h
  split at hu
  · cases hu
  next a w hw =>
  exact ((resolve hw).thenCall (callIf hu)).mono (List.Subset.refl _) (by simp [bitsIn_refl])

theorem bitJump {want : Bool} {target : Addr} {b : Except Fault (Bool × State)}
    (hb : ∀ v u, b = .ok (v, u) → Effect regs bits s u) (h : bitJump want target b = .next t) :
    Effect regs bits s t := by
  rcases b with f | ⟨v, u⟩
  · cases h
  · cases h
    exact ((hb v u rfl).seq (jumpIf _ 2 target u)).mono (by simp) (by simp [bitsIn_refl])

theorem bitCall {want : Bool} {target : Addr} {saved : BitVec 16} {b : Except Fault (Bool × State)}
    (hb : ∀ v u, b = .ok (v, u) → Effect regs bits s u) (h : bitCall want target saved b = .next t) :
    Effect (.c .sr :: (stackRegs ++ regs)) (callBits s ||| bits) s t := by
  rcases b with f | ⟨v, u⟩
  · cases h
  · exact endJump (fun w hw => (hb v u rfl).thenCall (callIf hw)) h

theorem bitAt {sp : DSpace} {a : Addr} {n : BitVec 5} {v : Bool}
    (h : (.ok (s.bitAt sp a n) : Except Fault _) = .ok (v, t)) : Effect [] 0 s t := by
  injection h with h
  have ht : (s.loadData sp a).2 = t := congrArg Prod.snd h
  exact ht ▸ loadData sp a s

theorem bitInd {sp : DSpace} {j : Ind} {n : BitVec 5} {v : Bool} (h : s.bitInd sp j n = .ok (v, t)) :
    Effect (indSet j) 0 s t := by
  unfold State.bitInd at h
  split at h
  · cases h
  next a u hu =>
  exact ((resolveInd hu).seq (bitAt h)).mono (by simp) (by simp [bitsIn_refl])

theorem bitOfReg {r : Reg} {n : BitVec 5} {v : Bool} (h : s.bitOfReg r n = .ok (v, t)) :
    Effect (readSet r) (bitReadBits r) s t := by
  unfold State.bitOfReg at h
  split at h
  · cases h
  next w u hu =>
  cases h
  exact readBitReg hu

/-- JSCLR and JSSET on a word at a fixed address. -/
theorem bitCall_at {want : Bool} {target : Addr} {saved : BitVec 16} {sp : DSpace} {a : Addr} {n : BitVec 5}
    (h : Machine.bitCall want target saved (.ok (s.bitAt sp a n)) = .next t) :
    Effect (.c .sr :: stackRegs) (callBits s) s t :=
  (bitCall (fun _ _ => bitAt) h).mono (by simp) (by simp [bitsIn_refl])

/-- JSCLR and JSSET on an indirect operand. -/
theorem bitCall_ind {want : Bool} {target : Addr} {saved : BitVec 16} {sp : DSpace} {j : Ind} {n : BitVec 5}
    (h : Machine.bitCall want target saved (s.bitInd sp j n) = .next t) :
    Effect (.c .sr :: (stackRegs ++ indSet j)) (callBits s) s t :=
  (bitCall (fun _ _ => bitInd) h).mono (List.Subset.refl _) (by simp [bitsIn_refl])

/-- The registers that a read may change are the status register and those of the stack. -/
theorem readSet_subset (r : Reg) : readSet r ⊆ .c .sr :: stackRegs := by
  cases r with
  | d x => cases x <;> simp [readSet]
  | c x => cases x <;> simp [readSet]
  | r k | n k | m k => simp [readSet]

/-- JSCLR and JSSET on a register. -/
theorem bitCall_reg {want : Bool} {target : Addr} {saved : BitVec 16} {r : Reg} {n : BitVec 5}
    (h : Machine.bitCall want target saved (s.bitOfReg r n) = .next t) :
    Effect (.c .sr :: stackRegs) (callBits s ||| bitReadBits r) s t :=
  (bitCall (fun _ _ => bitOfReg) h).mono (by simpa [stackRegs] using readSet_subset r) (bitsIn_refl _)

/-! ### Bit instructions -/

theorem endBit {n : Nat} {r : Except Fault State} (hr : ∀ u, r = .ok u → Effect regs bits s u)
    (h : endBit n r = .next t) : Effect regs bits s t := by
  cases r with
  | error f => cases h
  | ok u =>
    cases h
    exact ((hr u rfl).seq (advance n u)).mono (by simp) (by simp [bitsIn_refl])

theorem testMem (sp : DSpace) (a : Addr) (n : BitVec 5) (s : State) : Effect [.c .sr] 0x0001 s (s.testMem sp a n) :=
  (loadData sp a s).seq (setC _ _)

theorem testEa {sp : DSpace} {ea : Ea} {n : BitVec 5} (h : execBtstEa sp ea n s = .next t) :
    Effect (.c .sr :: eaSet ea) 0x0001 s t := by
  refine endBit (fun u hu => ?_) h
  split at hu
  · cases hu
  next a w hw =>
  cases hu
  exact ((resolve hw).seq (testMem sp a n w)).mono (by simp) (by simp [bitsIn_refl])

theorem testReg {r : Reg} {n : BitVec 5} (h : execBtstReg r n s = .next t) :
    Effect (.c .sr :: readSet r) (0x0001 ||| bitReadBits r) s t := by
  refine endBit (fun u hu => ?_) h
  split at hu
  · cases hu
  next v w hw =>
  cases hu
  refine ((readBitReg hw).seq (setC _ w)).mono (by simp) (bitsIn_or_iff.2 ⟨?_, ?_⟩)
  · exact bitsIn_or_right (bitsIn_refl _) _
  · exact bitsIn_or_left (bitsIn_refl _) _

theorem modifyMem (op : BitOp) (sp : DSpace) (a : Addr) (n : BitVec 5) (s : State) :
    Effect [.c .sr] 0x0001 s (s.modifyMem op sp a n) :=
  ((loadData sp a s).seq (storeData sp a _ _)).seq (setC _ _)

/-- A bit replaced. -/
theorem putBit_bit {n : Nat} (v : BitVec n) (k j : Nat) (b : Bool) :
    (putBit v k b).getLsbD j = if j = k ∧ j < n then b else v.getLsbD j := by
  by_cases hj : j < n
  · by_cases hk : j = k
    · subst hk
      cases b <;> simp [putBit, hj]
    · cases b <;> simp [putBit, hj, hk]
  · rw [if_neg (fun h => hj h.2), BitVec.getLsbD_of_ge _ _ (by omega), BitVec.getLsbD_of_ge _ _ (by omega)]

theorem setSr_putBit (n : Nat) (b : Bool) (s : State) :
    Effect [.c .sr] (BitVec.twoPow 16 n) s (s.setSr (putBit s.ctl.sr n b)) := by
  refine setSr fun k hk h => ?_
  rw [putBit_bit, if_neg]
  rintro ⟨rfl, -⟩
  simp [hk] at h

/-- A write of a register other than SR changes no status bit. -/
theorem writeBits_eq_zero {r : Reg} (h : r ≠ .c .sr) : writeBits r = 0 := by
  unfold writeBits
  split
  · exact absurd rfl h
  · rfl

theorem modifyReg {op : BitOp} {r : Reg} {n : BitVec 5} (h : s.modifyReg op r n = .ok t) :
    Effect (.c .sr :: (readSet r ++ writeSet r))
      (0x0001 ||| bitReadBits r ||| (if r = .c .sr then BitVec.twoPow 16 n.toNat else 0)) s t := by
  unfold State.modifyReg at h
  split at h
  · cases h
  next v u hu =>
  have hread := (readBitReg hu).seq (setC (v.getLsbD n.toNat) u)
  by_cases hr : r = .c .sr
  · subst hr
    cases h
    exact (hread.seq (setSr_putBit n.toNat _ _)).mono (by simp [readSet, writeSet]) (by simp [bitReadBits, bitsIn_refl])
  · have hbits : writeBits r = 0 := writeBits_eq_zero hr
    have ht : t = (u.setC (v.getLsbD n.toNat)).writeReg r (putBit v n.toNat (bitNew op (v.getLsbD n.toNat))) := by
      injection h with h
      rw [← h]
      split
      · exact absurd rfl hr
      · rfl
    rw [ht]
    rw [if_neg hr]
    refine (hread.seq (writeReg r _ _)).mono (fun q => ?_) (bitsIn_or_left ?_ _)
    · simp only [List.mem_append, List.mem_cons, List.not_mem_nil, or_false]
      tauto
    · simp only [hbits, bitsIn_or_iff, bitsIn_zero, and_true]
      exact ⟨bitsIn_or_right (bitsIn_refl _) _, bitsIn_or_left (bitsIn_refl _) _⟩

theorem modifyEa {op : BitOp} {sp : DSpace} {ea : Ea} {n : BitVec 5} (h : modifyEa op sp ea n s = .next t) :
    Effect (.c .sr :: eaSet ea) 0x0001 s t := by
  refine endBit (fun u hu => ?_) h
  split at hu
  · cases hu
  next a w hw =>
  cases hu
  exact ((resolve hw).seq (modifyMem op sp a n w)).mono (by simp) (by simp [bitsIn_refl])

/-! ### Class N moves -/

theorem endMove {n : Nat} {r : Except Fault State} (hr : ∀ u, r = .ok u → Effect regs bits s u)
    (h : endMove n r = .next t) : Effect regs bits s t := by
  cases r with
  | error f => cases h
  | ok u =>
    cases h
    exact ((hr u rfl).seq (advance n u)).mono (by simp) (by simp [bitsIn_refl])

theorem writeP {n : Nat} {a : Addr} {v : Word} (h : s.writeP n a v = .ok t) : Effect [] 0 s t := by
  unfold State.writeP at h
  split at h
  · cases h
  · cases h
    exact poke .p a v s

theorem moveP {n : Nat} {w : Dir} {r : Reg} {ea : Ea} (h : s.moveP n w r ea = .ok t) :
    Effect (dirSet w r ++ eaSet ea) (dirBits w r) s t := by
  cases w with
  | toReg =>
    simp only [State.moveP] at h
    split at h
    · cases h
    next a u hu =>
    cases h
    exact ((resolve hu).seq (writeReg r _ u)).mono (by simp [dirSet]) (by simp [dirBits, bitsIn_refl])
  | toMem =>
    simp only [State.moveP] at h
    split at h
    · cases h
    next v u hu =>
    split at h
    · cases h
    next a w hw =>
    exact (((readReg hu).seq (resolve hw)).seq (writeP h)).mono (by simp [dirSet]) (by simp [dirBits, bitsIn_refl])

/-- A register read and another written. -/
theorem moveRegs {r q : Reg} {v : Word} (hu : s.readReg r = .ok (v, u)) :
    Effect (readSet r ++ writeSet q) (readBits r ||| writeBits q) s (u.writeReg q v) :=
  (readReg hu).seq (writeReg q v u)

theorem movepEa {ps es : DSpace} {pp : BitVec 6} {x : Xfer} (h : execMovepEa ps pp es x s = .next t) :
    Effect (xferSet x) 0 s t := by
  refine endMove (fun u hu => ?_) h
  cases x with
  | toReg src =>
    simp only at hu
    split at hu
    · cases hu
    next v w hw =>
    cases hu
    exact ((loadEa hw).seq (storeData ps _ v w)).mono (by simp) (by simp [bitsIn_refl])
  | toMem dst => exact ((loadData ps _ s).seq (storeEa hu)).mono (by simp [xferSet]) (by simp [bitsIn_refl])

theorem movepP {ps : DSpace} {pp : BitVec 6} {w : Dir} {ea : Ea} (h : execMovepP ps pp w ea s = .next t) :
    Effect (eaSet ea) 0 s t := by
  refine endMove (fun u hu => ?_) h
  cases w with
  | toReg =>
    simp only at hu
    split at hu
    · cases hu
    next a w hw =>
    cases hu
    exact ((resolve hw).seq (storeData ps _ _ w)).mono (by simp) (by simp [bitsIn_refl])
  | toMem =>
    simp only at hu
    split at hu
    · cases hu
    next a w hw =>
    exact ((loadData ps _ s).seq ((resolve hw).seq (writeP hu))).mono (by simp) (by simp [bitsIn_refl])

theorem movepReg_read {ps : DSpace} {pp : BitVec 6} {r : Reg} (h : execMovepReg ps pp .toReg r s = .next t) :
    Effect (readSet r) (readBits r) s t := by
  refine endMove (fun u hu => ?_) h
  simp only at hu
  split at hu
  · cases hu
  next v w hw =>
  cases hu
  exact ((readReg hw).seq (storeData ps _ v w)).mono (by simp) (by simp [bitsIn_refl])

theorem movepReg_write {ps : DSpace} {pp : BitVec 6} {r : Reg} (h : execMovepReg ps pp .toMem r s = .next t) :
    Effect (writeSet r) (writeBits r) s t := by
  refine endMove (fun u hu => ?_) h
  cases hu
  exact ((loadData ps _ s).seq (writeReg r _ _)).mono (by simp) (by simp [bitsIn_refl])

theorem movecReg {r : Reg} {c : CReg} {w : Dir} (h : execMovecReg w r c s = .next t) :
    Effect (changeSet (.movecReg w r c)) (statusSet (.movecReg w r c) s) s t := by
  refine endMove (fun u hu => ?_) h
  cases w with
  | toReg =>
    simp only at hu
    split at hu
    · cases hu
    next v w hw =>
    cases hu
    exact moveRegs hw
  | toMem =>
    simp only at hu
    split at hu
    · cases hu
    next v w hw =>
    cases hu
    have hbits : readBits c.toReg = 0 := by cases c <;> rfl
    exact (moveRegs hw).mono (List.Subset.refl _) (bitsIn_or_iff.2 ⟨hbits ▸ bitsIn_zero _, bitsIn_refl _⟩)

theorem movecImm {j : BitVec 8} {c : CReg} (h : execMovecImm j c s = .next t) :
    Effect (writeSet c.toReg) (writeBits c.toReg) s t := by
  cases h
  exact ((writeReg c.toReg _ s).seq (advance 1 _)).mono (by simp) (by simp [bitsIn_refl])

theorem lua {mm : UMode} {k : BitVec 3} {dst : RNReg} (h : execLua mm k dst s = .next t) :
    Effect (changeSet (.lua mm k dst)) 0 s t := by
  refine endMove (fun u hu => ?_) h
  split at hu
  · cases hu
  next v hv =>
  cases dst with
  | r j =>
    cases hu
    exact setR j v s
  | n j =>
    cases hu
    exact setN j v s

/-! ### Loops -/

/-- An immediate count reads nothing. -/
theorem of_ok {n m : Addr} (h : (.ok (n, s) : Except Fault (Addr × State)) = .ok (m, t)) : Effect [] 0 s t := by
  cases h
  exact refl s

theorem countInd {sp : DSpace} {j : Ind} {n : Addr} (h : s.countInd sp j = .ok (n, t)) : Effect (indSet j) 0 s t := by
  unfold State.countInd at h
  split at h
  · cases h
  next a u hu =>
  cases h
  exact ((resolveInd hu).seq (loadData sp a u)).mono (by simp) (by simp [bitsIn_refl])

theorem countAa {sp : DSpace} {aa : BitVec 6} {n : Addr} (h : s.countAa sp aa = .ok (n, t)) : Effect [] 0 s t := by
  cases h
  exact loadData sp _ s

theorem countReg {r : Reg} {n : Addr} (h : s.countReg r = .ok (n, t)) : Effect (readSet r) (readBits r) s t := by
  unfold State.countReg at h
  split at h
  · cases h
  next v u hu =>
  cases h
  exact readReg hu

theorem setLf (b : Bool) (s : State) : Effect [.c .sr] 0x8000 s (s.setLf b) :=
  (setSr_putBit 15 b s).mono (List.Subset.refl _) (bitsIn_of_or (by decide))

/-- LA, LC and PC written together. -/
theorem setLoop (la lc pc : Addr) (s : State) :
    Effect [.c .la, .c .lc] 0 s { s with ctl := { s.ctl with la := la, lc := lc, pc := pc } } :=
  ((setLa la s).seq (setLc lc _)).seq (setPc pc _)

theorem doStart (count last : Addr) (saved : BitVec 16) (s : State) :
    Effect (.c .la :: .c .lc :: .c .sr :: stackRegs) 0x8000 s (s.doStart count last saved) :=
  (((((push s.ctl.la s.ctl.lc s).seq (setLoop last count _ _)).seq (push _ saved _)).seq (setLf true _)).seq
    (advance 2 _)).mono (by simp [stackRegs]) (by simp [bitsIn_refl])

theorem beginDo {last : Addr} {saved : BitVec 16} {q : Except Fault (Addr × State)}
    (hq : ∀ n u, q = .ok (n, u) → Effect regs bits s u) (h : beginDo last saved q = .next t) :
    Effect (.c .la :: .c .lc :: .c .sr :: (stackRegs ++ regs)) (0x8000 ||| bits) s t := by
  rcases q with f | ⟨n, u⟩
  · cases h
  · cases h
    have hin : regs ⊆ .c .la :: .c .lc :: .c .sr :: (stackRegs ++ regs) := fun q => by
      simp only [List.mem_cons, List.mem_append]
      tauto
    have hstart : .c .la :: .c .lc :: .c .sr :: stackRegs ⊆ .c .la :: .c .lc :: .c .sr :: (stackRegs ++ regs) :=
      fun q => by
        simp only [List.mem_cons, List.mem_append]
        tauto
    exact ((hq n u rfl).mono hin (bitsIn_or_right (bitsIn_refl _) _)).trans
      ((doStart n last saved u).mono hstart (bitsIn_or_left (bitsIn_refl _) _))

theorem leaveLoop (s : State) : Effect (.c .la :: .c .lc :: .c .sr :: stackRegs) 0x8000 s s.leaveLoop :=
  ((((pull s).seq (setLf _ _)).seq (pull _)).seq (setLoop _ _ _ _)).mono (by simp [stackRegs]) (by simp [bitsIn_refl])

/-! ### Control instructions -/

theorem modifyMr (f : BitVec 8 → BitVec 8) (s : State) : Effect [.c .sr] 0xFF00 s (s.modifyCtl8 .mr f) :=
  setSr fun k hk h => by
    have h8 : k < 8 := by
      by_contra h8
      interval_cases k <;> simp at h8 h
    rw [BitVec.getLsbD_append, if_pos h8]
    simp [h8]

theorem modifyCcr (f : BitVec 8 → BitVec 8) (s : State) : Effect [.c .sr] 0x00FF s (s.modifyCtl8 .ccr f) :=
  setSr fun k hk h => by
    have h8 : ¬k < 8 := by
      intro h8
      interval_cases k <;> simp at h
    have h2 : k - 8 < 8 := by omega
    have h3 : 8 + (k - 8) = k := by omega
    rw [BitVec.getLsbD_append, if_neg h8]
    simp [h2, h3]

theorem returnInterrupt (s : State) : Effect (.c .sr :: stackRegs) 0xFFFF s s.returnInterrupt :=
  (((pull s).seq (setSr_any _ _)).seq (setPc _ _)).mono (by simp) (by simp [bitsIn_refl])

theorem andi {j : BitVec 8} {d : ImmDest} (h : exec (.andi j d) s = .next t) :
    Effect (changeSet (.andi j d)) (statusSet (.andi j d) s) s t := by
  cases d <;> cases h
  · exact (modifyMr _ s).seq (advance 1 _)
  · exact (modifyCcr _ s).seq (advance 1 _)
  · exact (setOmr _ s).seq (advance 1 _)

theorem ori {j : BitVec 8} {d : ImmDest} (h : exec (.ori j d) s = .next t) :
    Effect (changeSet (.ori j d)) (statusSet (.ori j d) s) s t := by
  cases d <;> cases h
  · exact (modifyMr _ s).seq (advance 1 _)
  · exact (modifyCcr _ s).seq (advance 1 _)
  · exact (setOmr _ s).seq (advance 1 _)

/-- RESET (41_program_control.md R250, R251). -/
theorem resetDevices (s : State) : Effect [] 0 s { s.clearMaskable.tell .peripheralReset with ipr := 0 } :=
  of_quiet (by simp only [State.clearMaskable, State.tell])

/-! ### NORM and Tcc -/

theorem norm {k : BitVec 3} {d : Acc} (h : execNorm k d s = .next t) :
    Effect (.c .sr :: .r k :: accNames d) 0x007E s t := by
  have halu (r : AccVal) (v : Bool) (m : ScaleMode) :
      Effect (.c .sr :: .r k :: accNames d) 0x007E s (s.putAlu (keepC d r v m)) :=
    (putAlu (keepC_within d r v m) s).mono (fun q => by simp [dstRegs]; tauto)
    (bitsIn_refl _)
  have hr (x : Addr) (u : State) : Effect (.c .sr :: .r k :: accNames d) 0x007E u (u.setR k x) :=
    (setR k x u).mono (by simp) (bitsIn_zero _)
  have hend (u : State) : Effect (.c .sr :: .r k :: accNames d) 0x007E u (u.advance 1) :=
    (advance 1 u).mono (by simp) (bitsIn_zero _)
  unfold execNorm at h
  split at h
  · cases h
  next m hm =>
  simp only at h
  split at h
  · cases h
    exact ((halu _ _ m).trans (hr _ _)).trans (hend _)
  · split at h
    · cases h
      exact ((halu _ _ m).trans (hr _ _)).trans (hend _)
    · cases h
      exact (halu _ _ m).trans (hend _)

theorem tcc {k : Cond} {src : TSrc} {d : Acc} (h : execTcc k src d s = .next t) : Effect (accNames d) 0 s t := by
  cases h
  split
  · exact ((setAcc d _ s).seq (advance 1 _)).mono (by simp) (bitsIn_zero _)
  · exact (advance 1 s).mono (by simp) (bitsIn_zero _)

theorem tccR {k : Cond} {src : TSrc} {d : Acc} {s2 d2 : BitVec 3} (h : execTccR k src d s2 d2 s = .next t) :
    Effect (.r d2 :: accNames d) 0 s t := by
  cases h
  split
  · exact (((setAcc d _ s).seq (setR d2 _ _)).seq (advance 1 _)).mono (by simp) (bitsIn_zero _)
  · exact (advance 1 s).mono (by simp) (bitsIn_zero _)

end Effect
end Sys2Proof.Machine
end

section
/-! What every instruction may change, in one statement, and the frames that follow from it. -/

namespace Sys2Proof.Machine

/-- From `s` to `t` the instruction has its frame, with two exceptions of the run state: REP starts a repeat, and STOP,
WAIT and DEBUG leave the processing state. -/
def Completes (i : Instr) (s t : State) : Prop :=
  ∃ u, Effect (changeSet i) (statusSet i s) s u ∧ t = { u with rep := t.rep, proc := t.proc } ∧
    (isRep i = false → t.rep = u.rep) ∧
    (t.proc = u.proc ∨ t.proc = .debug ∧ (i = .debug ∨ ∃ k, i = .debugcc k) ∨ t.proc = .stop ∧ i = .stop ∨
      t.proc = .wait ∧ i = .wait)

namespace Completes
variable {i : Instr} {s t : State}

theorem of_effect (h : Effect (changeSet i) (statusSet i s) s t) : Completes i s t :=
  ⟨t, h, rfl, fun _ => rfl, .inl rfl⟩

/-- A data-ALU operation with a parallel move. -/
theorem of_parallel {alu : State → Except Fault AluOut} {dst : Option Acc} {flags : List Reg} {bits : BitVec 16}
    {mv : ParMove} (halu : AluWithin alu dst flags bits) (h : parallel alu mv s = .next t)
    (hr : changeSet i = moveSet mv ++ dstRegs dst ++ flags) (hb : statusSet i s = moveBits mv ||| bits) :
    Completes i s t :=
  of_effect (hr ▸ hb ▸ Effect.parallel halu h)

/-- A move with no data-ALU operation. -/
theorem of_move {mv : ParMove} (h : moveOnly mv s = .next t) (hr : changeSet i = moveSet mv ++ [] ++ [])
    (hb : statusSet i s = moveBits mv ||| 0) : Completes i s t :=
  of_effect (hr ▸ hb ▸ Effect.moveOnly h)

/-- A REP whose count is read with an effect of its own. -/
theorem of_rep {regs : List Reg} {bits : BitVec 16} {q : Except Fault (Addr × State)}
    (hq : ∀ n u, q = .ok (n, u) → Effect regs bits s u) (h : beginRep q = .next t) (hi : isRep i = true)
    (hr : .c .lc :: regs ⊆ changeSet i) (hb : bitsIn bits (statusSet i s)) : Completes i s t := by
  rcases q with f | ⟨n, u⟩
  · cases h
  · cases h
    have hlc := (Effect.setLc n u).seq (Effect.advance 1 _)
    refine ⟨_, ((hq n u rfl).seq hlc).mono (fun q hq => hr ?_) (bitsIn_or_iff.2 ⟨hb, bitsIn_zero _⟩), ?_,
      fun h => absurd h (by simp [hi]), .inl ?_⟩
    · simp only [List.mem_append, List.mem_cons, List.not_mem_nil, or_false] at hq ⊢
      tauto
    all_goals
      simp only [State.repStart, State.advance]
      cases u.vec <;> rfl

/-- An instruction that only ends. -/
theorem of_advance (n : Nat) (s : State) : Completes i s (s.advance n) :=
  of_effect ((Effect.advance n s).mono (by simp) (bitsIn_zero _))

/-- STOP and WAIT leave the processing state. -/
theorem of_proc {p : ProcState} (hi : p = .stop ∧ i = .stop ∨ p = .wait ∧ i = .wait) :
    Completes i s { s.advance 1 with proc := p } :=
  ⟨s.advance 1, (Effect.advance 1 s).mono (by simp) (bitsIn_zero _), rfl, fun _ => rfl, .inr (.inr hi)⟩

/-- DEBUG leaves the processing state, where the part has a debug port. -/
theorem of_debug (hi : i = .debug ∨ ∃ k, i = .debugcc k) : Completes i s (s.enterDebug.advance 1) := by
  unfold State.enterDebug
  split
  · refine ⟨(s.tell .debugRequest).advance 1, ?_, ?_, ?_, ?_⟩
    · exact ((Effect.tell .debugRequest s).seq (Effect.advance 1 _)).mono (by simp) (bitsIn_zero _)
    all_goals
      simp only [State.advance, State.tell]
      cases s.vec
    all_goals simp [hi, State.setPc]
  · exact of_advance 1 s

end Completes

variable {i : Instr} {s t : State}

/-- An instruction that completes has its frame: the registers of its `changeSet`, the status bits of its `statusSet`,
and the run state of `Completes`. -/
theorem exec_completes (h : exec i s = .next t) : Completes i s t := by
  cases i with
  | jsccShort k a => exact .of_effect (Effect.endJump (fun _ hu => Effect.callIf hu) h)
  | jsrShort a => exact .of_effect (Effect.endJump (fun _ hu => Effect.call hu) h)
  | jccShort k a =>
    cases h
    exact .of_effect (Effect.jumpIf _ _ _ s)
  | jmpShort a =>
    cases h
    exact .of_effect (Effect.jump _ _ s)
  | jsccEa k ea => exact .of_effect (Effect.callIfEa h)
  | jsrEa ea => exact .of_effect (Effect.callEa h)
  | jccEa k ea => exact .of_effect (Effect.jumpIfEa h)
  | jmpEa ea => exact .of_effect (Effect.jumpEa h)
  | jssetPp sp pp n a | jssetAa sp aa n a | jsclrPp sp pp n a | jsclrAa sp aa n a =>
    exact .of_effect (Effect.bitCall_at h)
  | jssetEa sp j n a | jsclrEa sp j n a => exact .of_effect (Effect.bitCall_ind h)
  | jssetReg r n a | jsclrReg r n a => exact .of_effect (Effect.bitCall_reg h)
  | jsetPp sp pp n a | jsetAa sp aa n a | jclrPp sp pp n a | jclrAa sp aa n a =>
    exact .of_effect (Effect.bitJump (fun _ _ => Effect.bitAt) h)
  | jsetEa sp j n a | jclrEa sp j n a => exact .of_effect (Effect.bitJump (fun _ _ => Effect.bitInd) h)
  | jsetReg r n a | jclrReg r n a => exact .of_effect (Effect.bitJump (fun _ _ => Effect.bitOfReg) h)
  | btstPp sp pp n | btstAa sp aa n =>
    cases h
    exact .of_effect ((Effect.testMem sp _ n s).seq (Effect.advance 1 _))
  | bchgPp sp pp n | bchgAa sp aa n | bsetPp sp pp n | bsetAa sp aa n | bclrPp sp pp n | bclrAa sp aa n =>
    cases h
    exact .of_effect ((Effect.modifyMem _ sp _ n s).seq (Effect.advance 1 _))
  | btstEa sp ea n => exact .of_effect (Effect.testEa h)
  | bchgEa sp ea n | bsetEa sp ea n | bclrEa sp ea n => exact .of_effect (Effect.modifyEa h)
  | btstReg r n => exact .of_effect (Effect.testReg h)
  | bchgReg r n | bsetReg r n | bclrReg r n =>
    exact .of_effect (Effect.endBit (fun _ => Effect.modifyReg) h)
  | movepEa ps pp es x => exact .of_effect (Effect.movepEa h)
  | movepP ps pp w ea => exact .of_effect (Effect.movepP h)
  | movepReg ps pp w r =>
    cases w with
    | toReg => exact .of_effect (Effect.movepReg_read h)
    | toMem => exact .of_effect (Effect.movepReg_write h)
  | movemEa w ea r => exact .of_effect (Effect.endMove (fun _ => Effect.moveP) h)
  | movemAa w aa r =>
    have heffect : Effect (dirSet w r ++ []) (dirBits w r) s t := Effect.endMove (fun _ => Effect.moveP) h
    rw [List.append_nil] at heffect
    exact .of_effect heffect
  | repImm count =>
    exact .of_rep (q := .ok (count.setWidth 16, s)) (fun _ _ hu => Effect.of_ok hu) h rfl (List.Subset.refl _)
      (bitsIn_zero _)
  | repReg r => exact .of_rep (fun _ _ => Effect.countReg) h rfl (List.Subset.refl _) (bitsIn_refl _)
  | repEa sp j => exact .of_rep (fun _ _ => Effect.countInd) h rfl (List.Subset.refl _) (bitsIn_zero _)
  | repAa sp aa => exact .of_rep (fun _ _ => Effect.countAa) h rfl (List.Subset.refl _) (bitsIn_zero _)
  | doImm count last =>
    exact .of_effect (Effect.beginDo (q := .ok (count.setWidth 16, s)) (fun _ _ hu => Effect.of_ok hu) h)
  | doReg r last => exact .of_effect (Effect.beginDo (fun _ _ => Effect.countReg) h)
  | doEa sp j last => exact .of_effect (Effect.beginDo (fun _ _ => Effect.countInd) h)
  | doAa sp aa last => exact .of_effect (Effect.beginDo (fun _ _ => Effect.countAa) h)
  | movecEa sp x c => exact .of_effect (Effect.endMove (fun _ => Effect.moveEa) h)
  | movecAa sp w aa c => exact .of_effect (Effect.endMove (fun _ => Effect.moveAt) h)
  | movecReg w r c => exact .of_effect (Effect.movecReg h)
  | movecImm j c => exact .of_effect (Effect.movecImm h)
  | lua mm r dst => exact .of_effect (Effect.lua h)
  | tcc k src d => exact .of_effect (Effect.tcc h)
  | tccR k src d s2 d2 => exact .of_effect (Effect.tccR h)
  | norm r d => exact .of_effect (Effect.norm h)
  | divStep src d => exact .of_effect (Effect.execDiv h)
  | macImm neg qq d sh | macrImm neg qq d sh | mpyImm neg qq d sh | mpyrImm neg qq d sh => cases h
  | debugcc k =>
    cases h
    split
    · exact .of_debug (.inr ⟨k, rfl⟩)
    · exact .of_advance 1 s
  | debug =>
    cases h
    exact .of_debug (.inl rfl)
  | ori j d => exact .of_effect (Effect.ori h)
  | andi j d => exact .of_effect (Effect.andi h)
  | enddo =>
    cases h
    exact .of_effect ((Effect.leaveLoop s).seq (Effect.advance 1 _))
  | stop =>
    cases h
    exact .of_proc (.inl ⟨rfl, rfl⟩)
  | wait =>
    cases h
    exact .of_proc (.inr ⟨rfl, rfl⟩)
  | reset =>
    cases h
    exact .of_effect ((Effect.resetDevices s).seq (Effect.advance 1 _))
  | rts =>
    cases h
    exact .of_effect ((Effect.pull s).seq (Effect.setPc _ _))
  | dec d => exact .of_effect (Effect.execDec h)
  | inc d => exact .of_effect (Effect.execInc h)
  | swi =>
    cases h
    exact .of_effect ((Effect.pend .swi s).seq (Effect.advance 1 _))
  | illegal =>
    cases h
    exact .of_effect ((Effect.pend .illegal s).seq (Effect.advance 1 _))
  | rti =>
    cases h
    exact .of_effect (Effect.returnInterrupt s)
  | nop =>
    cases h
    exact .of_advance 1 s
  | tfrAcc d mv | tfrWord w d mv => exact .of_parallel (Effect.aluTfr_within d _) h rfl rfl
  | addr d mv | addl d mv | subr d mv | subl d mv | addAcc d mv | addLong l d mv | addWord w d mv | adc l d mv
  | subAcc d mv | subLong l d mv | subWord w d mv | sbc l d mv | asl d mv =>
    exact .of_parallel (aluWithin_withScale fun m s => Effect.sumOut_within d _ m) h rfl rfl
  | asr d mv =>
    exact .of_parallel (aluWithin_withScale fun m s => Effect.sumOut_within_of_no_overflow d m rfl) h rfl rfl
  | cmpAcc d mv | cmpmAcc d mv | cmpWord w d mv | cmpmWord w d mv =>
    exact .of_parallel (aluWithin_withScale fun m s => Effect.cmpOut_within _ m) h rfl rfl
  | tst d mv => exact .of_parallel (Effect.test_within d) h rfl rfl
  | clr d mv => exact .of_parallel (Effect.clear_within d) h rfl rfl
  | rnd d mv | absAcc d mv | neg d mv | mpyr neg q d mv | mac neg q d mv | macr neg q d mv =>
    exact .of_parallel (aluWithin_withScale fun m s => Effect.keepC_within d _ _ m) h rfl rfl
  | mpy neg q d mv =>
    exact .of_parallel (aluWithin_withScale fun m s => Effect.keepC_within_of_no_overflow d _ m) h rfl rfl
  | notAcc d mv | andWord w d mv | orWord w d mv | eorWord w d mv =>
    exact .of_parallel (aluWithin_withScale fun m s => Effect.logicOut_within d _ _) h rfl rfl
  | lsl d mv | lsr d mv =>
    exact .of_parallel (aluWithin_withScale fun m s => Effect.logicOut_within_carry d _ _ _) h rfl rfl
  | rol d mv | ror d mv => exact .of_parallel (Effect.aluRotate_within d fun _ _ => rfl) h rfl rfl
  | moveNone => exact .of_move (mv := .none) h rfl rfl
  | moveImm dst j => exact .of_move (mv := .imm dst j) h rfl rfl
  | moveReg src dst => exact .of_move (mv := .reg src dst) h rfl rfl
  | moveUpd mm r => exact .of_move (mv := .upd mm r) h rfl rfl
  | moveXEa x r => exact .of_move (mv := .xEa x r) h rfl rfl
  | moveXAa w aa r => exact .of_move (mv := .xAa w aa r) h rfl rfl
  | moveYEa x r => exact .of_move (mv := .yEa x r) h rfl rfl
  | moveYAa w aa r => exact .of_move (mv := .yAa w aa r) h rfl rfl
  | moveLEa w ea l => exact .of_move (mv := .lEa w ea l) h rfl rfl
  | moveLAa w aa l => exact .of_move (mv := .lAa w aa l) h rfl rfl
  | moveXR ee x d f => exact .of_move (mv := .xr ee x d f) h rfl rfl
  | moveRY d e ff x => exact .of_move (mv := .ry d e ff x) h rfl rfl
  | moveXR2 d ea => exact .of_move (mv := .xr2 d ea) h rfl rfl
  | moveRY2 d ea => exact .of_move (mv := .ry2 d ea) h rfl rfl
  | moveXY wx ee mx rx wy ff my ry => exact .of_move (mv := .xy wx ee mx rx wy ff my ry) h rfl rfl

end Sys2Proof.Machine
end

section
/-! The frames of every instruction, from `exec_completes`. -/

namespace Sys2Proof.Machine
variable {i : Instr} {s t : State}

/-- Settles O12. -/
theorem registerFrame : Obligations.RegisterFrame := by
  intro i s t q h hq
  obtain ⟨u, hu, ht, -, -⟩ := exec_completes h
  have hsame : t.raw q = u.raw q := raw_congr (by rw [ht]) (by rw [ht]) (by rw [ht]) (by rw [ht]) q
  exact hsame.trans (hu.raw q hq)

/-- Settles O13. -/
theorem statusFrame : Obligations.StatusFrame := by
  intro i s t k hs h hk
  obtain ⟨u, hu, ht, -, -⟩ := exec_completes h
  have hsame : t.ctl = u.ctl := by rw [ht]
  rw [hsame]
  exact hu.status hs k hk

/-- Settles O14. -/
theorem hiddenStateFrame : Obligations.HiddenStateFrame := by
  intro i s t h
  obtain ⟨u, hu, ht, hrep, hproc⟩ := exec_completes h
  obtain ⟨hprev, hagu, hinbox, hplat, hclock, hrep'⟩ := hu.hidden
  have hvec : t.vec = u.vec := by rw [ht]
  refine ⟨?_, ?_, ?_, ?_, ?_, fun hi => (hrep hi).trans hrep', fun hs => hvec.trans (hu.outside hs).1,
    fun hs hstop hwait hdebug hdebugcc => ?proc⟩
  case proc =>
    rcases hproc with hproc | ⟨-, hi | ⟨k, hi⟩⟩ | ⟨-, hi⟩ | ⟨-, hi⟩
    · exact hproc.trans (hu.outside hs).2
    · exact absurd hi hdebug
    · exact absurd hi (hdebugcc k)
    · exact absurd hi hstop
    · exact absurd hi hwait
  all_goals
    rw [ht]
    assumption

end Sys2Proof.Machine
end

section
/-! The legal states are kept by every step: by the events of a slot, by an instruction, and by what follows it. -/

namespace Sys2Proof.Machine

/-! ### The three parts of `legal` -/

/-- The processing states in which vector words may be in progress (assumption 32). -/
def ProcState.runsVector (p : ProcState) : Prop := p = .exception ∨ p = .debug ∨ p = .normal

/-- Vector words stand only where they may, whichever of them comes next. -/
def State.vecPlaced (s : State) : Prop :=
  (s.vec = none → s.proc ≠ .exception) ∧ (s.vec ≠ none → s.proc.runsVector)

/-- `vecLegal` is `vecPlaced` with one of the two words of the vector still to come. -/
theorem vecLegal_iff (s : State) :
    s.vecLegal = true ↔ s.vecPlaced ∧ ∀ v, s.vec = some v → v.slot = 0 ∨ v.slot = 1 := by
  unfold State.vecLegal
  cases hv : s.vec with
  | none => simp [State.vecPlaced, hv]
  | some v => simp [State.vecPlaced, ProcState.runsVector, hv, and_comm, or_assoc]

theorem legal_iff (s : State) : s.legal = true ↔ s.srLegal = true ∧ s.memLegal = true ∧ s.vecLegal = true := by
  simp [State.legal, and_assoc]

/-- From a state to the next: SR and the memories stay legal, and the parameters stay. -/
abbrev Keeps (s t : State) : Prop :=
  (s.srLegal = true → t.srLegal = true) ∧ (s.memLegal = true → t.memLegal = true) ∧ t.plat = s.plat

namespace Keeps
variable {s t u : State}

theorem trans (h : Keeps s t) (h' : Keeps t u) : Keeps s u := by
  obtain ⟨hsr, hmem, hplat⟩ := h
  obtain ⟨hsr', hmem', hplat'⟩ := h'
  exact ⟨hsr' ∘ hsr, hmem' ∘ hmem, hplat'.trans hplat⟩

/-- An operation that leaves SR, the memories and the parameters alone. -/
theorem of_same (hsr : t.ctl.sr = s.ctl.sr) (hmem : t.mem = s.mem) (hplat : t.plat = s.plat) : Keeps s t := by
  simp only [Keeps, State.srLegal, State.memLegal, hsr, hmem, hplat, imp_self, and_self]

theorem of_effect {regs : List Reg} {bits : BitVec 16} (h : Effect regs bits s t) : Keeps s t := by
  obtain ⟨-, -, -, hplat, -, -⟩ := h.hidden
  exact ⟨h.srLegal, h.memLegal, hplat⟩

end Keeps

/-! ### The events of a slot -/

section Events
variable {s t : State}

/-- What `legal` speaks of. -/
theorem legal_congr (hsr : t.ctl.sr = s.ctl.sr) (hmem : t.mem = s.mem) (hplat : t.plat = s.plat)
    (hvec : t.vec = s.vec) (hproc : t.proc = s.proc) : t.legal = s.legal := by
  simp only [State.legal, State.srLegal, State.memLegal, State.vecLegal, hsr, hmem, hplat, hvec, hproc]

/-- Where a legal state may leave its processing state without leaving a vector. -/
theorem vec_none_of_legal (h : s.legal = true) (hp : ¬s.proc.runsVector) : s.vec = none := by
  by_contra hv
  exact hp (((vecLegal_iff s).1 ((legal_iff s).1 h).2.2).1.2 hv)

/-- A legal state outside a vector stays legal where only its processing state changes. -/
theorem legal_withProc (h : s.legal = true) (hv : s.vec = none) {p : ProcState} (hp : p ≠ .exception) :
    ({ s with proc := p } : State).legal = true := by
  obtain ⟨hsr, hmem, -⟩ := (legal_iff s).1 h
  refine (legal_iff _).2 ⟨hsr, hmem, ?_⟩
  simp [State.vecLegal, hv, hp]

theorem hardReset_legal (h : s.legal = true) : s.hardReset.legal = true := by
  obtain ⟨-, hmem, -⟩ := (legal_iff s).1 h
  have hmask : 0x0300 &&& s.plat.srMask = 0x0300 := by
    simp only [Platform.srMask]
    cases s.plat.hasSBit <;> cases s.plat.hasDmBit <;> decide
  exact (legal_iff _).2 ⟨beq_iff_eq.2 hmask, hmem, rfl⟩

theorem poke_legal (sp : Space) (a : Addr) (v : Word) (h : s.legal = true) : (s.poke sp a v).legal = true := by
  obtain ⟨hsr, hmem, hvec⟩ := (legal_iff s).1 h
  exact (legal_iff _).2 ⟨hsr, (Effect.poke sp a v s).memLegal hmem, hvec⟩

theorem leaveStop_legal (h : s.legal = true) (hp : s.proc = .stop) : s.leaveStop.legal = true := by
  have hv : s.vec = none := vec_none_of_legal h (by simp [ProcState.runsVector, hp])
  have hsame : s.leaveStop.legal = ({ s with proc := .normal } : State).legal := by
    rw [leaveStop_state]
    exact legal_congr rfl rfl rfl rfl rfl
  rw [hsame]
  exact legal_withProc h hv (by simp)

/-- debug_resume gives the normal state, in a vector too. -/
theorem debugResume_legal (h : s.legal = true) :
    ({ s with proc := .normal } : State).legal = true := by
  obtain ⟨hsr, hmem, hvec⟩ := (legal_iff s).1 h
  refine (legal_iff _).2 ⟨hsr, hmem, ?_⟩
  obtain ⟨-, hslot⟩ := (vecLegal_iff s).1 hvec
  exact (vecLegal_iff _).2 ⟨⟨fun _ => by simp, fun _ => .inr (.inr rfl)⟩, hslot⟩

theorem takeEvent_legal (e : HostEvent) (h : s.legal = true) : (s.takeEvent e).legal = true := by
  unfold State.takeEvent
  split
  case h_1 => exact hardReset_legal h
  case h_2 hp => exact leaveStop_legal h hp
  case h_3 =>
    split
    · exact poke_legal _ _ _ h
    · exact h
  case h_4 => exact debugResume_legal h
  case h_10 => split <;> exact h
  all_goals exact h

/-- The events of a slot keep the state legal and the parameters. -/
theorem takeSlot_legal (h : s.legal = true) : s.takeSlot.legal = true ∧ s.takeSlot.plat = s.plat := by
  have hfold (es : List HostEvent) :
      ∀ t : State, t.legal = true →
        (es.foldl (fun u e => u.takeEvent e) t).legal = true ∧
          (es.foldl (fun u e => u.takeEvent e) t).plat = t.plat := by
    induction es with
    | nil => exact fun t ht => ⟨ht, rfl⟩
    | cons e es ih =>
      intro t ht
      obtain ⟨hlegal, hplat⟩ := ih (t.takeEvent e) (takeEvent_legal e ht)
      exact ⟨hlegal, hplat.trans (takeEvent_frame e t).2⟩
  unfold State.takeSlot
  split
  · exact ⟨h, rfl⟩
  · next slot rest _ => exact hfold slot { s with inbox := rest } h

end Events

/-! ### An instruction -/

section Instruction
variable {i : Instr} {s t : State}

/-- An instruction keeps SR and the memories legal. -/
theorem exec_keeps (h : exec i s = .next t) : Keeps s t := by
  obtain ⟨u, hu, ht, -, -⟩ := exec_completes h
  refine (Keeps.of_effect hu).trans (.of_same ?_ ?_ ?_) <;> rw [ht]

/-- An instruction that runs in a vector is neither STOP nor WAIT (70_reset_and_hazards.md R579). -/
theorem vec_none_of_stop (hz : hazard i s = none) (hi : i = .stop ∨ i = .wait) : s.vec = none := by
  by_contra hv
  have hsome : s.vec.isSome = true := Option.isSome_iff_ne_none.2 hv
  have hbad : badInFast i = true := by rcases hi with rfl | rfl <;> rfl
  unfold hazard at hz
  split at hz
  · cases hz
  split at hz
  · cases hz
  simp [hsome, hbad] at hz

/-- Where the processing state and the vector are after an instruction: it starts no vector, and in a vector it ends
in a processing state that runs one. -/
abbrev Ran (s t : State) : Prop :=
  (s.vec = none → t.vec = none) ∧ t.vecPlaced ∧ (s.vec ≠ none → t.proc.runsVector)

theorem exec_ran (hs : s.vecPlaced) (hz : hazard i s = none) (h : exec i s = .next t) : Ran s t := by
  obtain ⟨u, hu, ht, -, hproc⟩ := exec_completes h
  have hvec : t.vec = u.vec := by rw [ht]
  by_cases hv : s.vec = none
  · obtain ⟨huv, hup⟩ := hu.outside hv
    have htv : t.vec = none := hvec.trans huv
    refine ⟨fun _ => htv, ⟨fun _ => ?_, fun h => absurd htv h⟩, fun h => absurd hv h⟩
    rcases hproc with hp | ⟨hp, -⟩ | ⟨hp, -⟩ | ⟨hp, -⟩ <;> rw [hp]
    · rw [hup]
      exact hs.1 hv
    all_goals simp
  · have hrun : s.proc.runsVector := hs.2 hv
    rcases hproc with hp | ⟨hp, -⟩ | ⟨-, hi⟩ | ⟨-, hi⟩
    · rcases hu.inside hv with ⟨huv, hup⟩ | ⟨huv, hup⟩
      · have htr : t.proc.runsVector := by rw [hp, hup]; exact hrun
        exact ⟨fun h => absurd h hv, ⟨fun h => absurd (hvec.symm.trans h) huv, fun _ => htr⟩, fun _ => htr⟩
      · have htp : t.proc = .normal := hp.trans hup
        exact ⟨fun h => absurd h hv, ⟨fun _ => by simp [htp], fun _ => .inr (.inr htp)⟩, fun _ => .inr (.inr htp)⟩
    · exact ⟨fun h => absurd h hv, ⟨fun _ => by simp [hp], fun _ => .inr (.inl hp)⟩, fun _ => .inr (.inl hp)⟩
    · exact absurd (vec_none_of_stop hz (.inl hi)) hv
    · exact absurd (vec_none_of_stop hz (.inr hi)) hv

/-! ### What follows an instruction -/

/-- The end of a pass through a loop, by its frame. -/
theorem loopEnd_effect (t : State) :
    Effect (.c .la :: .c .lc :: .c .sr :: stackRegs) 0x8000 t t.loopEnd := by
  unfold State.loopEnd
  split
  · exact ((((Effect.pull t).seq (Effect.setLf (t.pull.1.2.getLsbD 15) _)).seq (Effect.pull _)).seq
      (Effect.setLoop _ _ _ _)).mono (by simp [stackRegs]) (by simp [bitsIn_refl])
  · exact ((Effect.ssTop t).seq (Effect.setLoop _ _ _ _)).mono (by simp) (bitsIn_zero _)

theorem repPass_keeps (s t : State) : Keeps t (s.repPass t) := by
  unfold State.repPass
  split <;> exact .of_same rfl rfl rfl

theorem endVector_keeps (t : State) : Keeps t t.endVector := by
  unfold State.endVector
  split
  · exact .of_same rfl rfl rfl
  · split <;> exact .of_same rfl rfl rfl

/-- A pass of REP that is not the last puts the vector back where it was. -/
theorem repPass_ran (h : Ran s t) : Ran s (s.repPass t) := by
  unfold State.repPass
  split
  · exact h
  · obtain ⟨houtside, hplaced, hinside⟩ := h
    exact ⟨id, ⟨fun hv => hplaced.1 (houtside hv), hinside⟩, hinside⟩

/-- After both words of a vector the interrupted program goes on. -/
theorem endVector_vecLegal (h : t.vecPlaced) : t.endVector.vecLegal = true := by
  unfold State.endVector
  split
  · next hv => exact (vecLegal_iff t).2 ⟨h, fun v hv' => by simp [hv] at hv'⟩
  · next v hv =>
    split
    · by_cases hp : t.proc = .exception <;> simp [State.vecLegal, hp]
    · next hslot =>
      refine (vecLegal_iff t).2 ⟨h, fun w hw => ?_⟩
      obtain rfl : v = w := Option.some.inj (hv.symm.trans hw)
      have hrest : ∀ b : BitVec 2, ¬(b = 2 ∨ b = 3) → b = 0 ∨ b = 1 := by decide
      exact hrest v.slot hslot

/-- After the pass of REP the loop or the vector ends. -/
theorem loopOrVector_legal (n : Nat) (hs : s.legal = true) (hk : Keeps s t) (hr : Ran s t) :
    let u := if loopEnds n s t then t.loopEnd else t.endVector
    u.legal = true ∧ u.plat = s.plat := by
  obtain ⟨hsr, hmem, -⟩ := (legal_iff s).1 hs
  obtain ⟨houtside, hplaced, -⟩ := hr
  intro u
  have hend : Keeps t u ∧ u.vecLegal = true := by
    by_cases h : loopEnds n s t = true
    · rw [show u = t.loopEnd from if_pos h]
      have hnone : s.vec = none := by
        by_contra hv
        simp [loopEnds, hv] at h
      obtain ⟨hvec, hproc⟩ := (loopEnd_effect t).outside (houtside hnone)
      refine ⟨.of_effect (loopEnd_effect t), ?_⟩
      simp only [State.vecLegal, hvec, hproc, bne_iff_ne]
      exact hplaced.1 (houtside hnone)
    · rw [show u = t.endVector from if_neg h]
      exact ⟨endVector_keeps t, endVector_vecLegal hplaced⟩
  obtain ⟨hend, hvec⟩ := hend
  obtain ⟨hsr', hmem', hplat⟩ := hk.trans hend
  exact ⟨(legal_iff u).2 ⟨hsr' hsr, hmem' hmem, hvec⟩, hplat⟩

theorem retire_legal (hs : s.legal = true) (hk : Keeps s t) (hr : Ran s t) :
    (retire i s t).legal = true ∧ (retire i s t).plat = s.plat := by
  have hmark : Keeps s (s.traced (State.mark i s t)) ∧ Ran s (s.traced (State.mark i s t)) := by
    unfold State.traced
    split <;> exact ⟨hk.trans (.of_same rfl rfl rfl), hr⟩
  obtain ⟨hku, hru⟩ := hmark
  unfold retire
  simp only
  by_cases hrep : s.rep.repeating = true
  · rw [if_pos hrep]
    exact loopOrVector_legal i.words hs (hku.trans (repPass_keeps s _)) (repPass_ran hru)
  · rw [if_neg hrep]
    exact loopOrVector_legal i.words hs hku hru

theorem issue_legal (hs : s.legal = true) (h : issue i s = .next t) : t.legal = true ∧ t.plat = s.plat := by
  unfold issue at h
  split at h
  · cases h
  next hz =>
  split at h
  · cases h
  · cases h
  next u hu =>
  cases h
  exact retire_legal hs (exec_keeps hu) (exec_ran ((vecLegal_iff s).1 ((legal_iff s).1 hs).2.2).1 hz hu)

end Instruction

/-! ### The step -/

section Step
variable {s t : State}

theorem service_legal (q : Source) (l : BitVec 2) (h : s.legal = true) :
    (s.service q l).legal = true ∧ (s.service q l).plat = s.plat := by
  obtain ⟨hsr, hmem, -⟩ := (legal_iff s).1 h
  exact ⟨(legal_iff _).2 ⟨hsr, hmem, rfl⟩, rfl⟩

theorem runNext_legal (hs : s.legal = true) (h : runNext s = .next t) : t.legal = true ∧ t.plat = s.plat := by
  unfold runNext at h
  split at h
  · cases h
  · split at h
    · cases h
    · exact issue_legal hs h

theorem runPass_legal (hs : s.legal = true) (h : runPass s = .next t) : t.legal = true ∧ t.plat = s.plat := by
  unfold runPass at h
  split at h
  · cases h
  · split at h
    · cases h
    · split at h
      · cases h
      · exact issue_legal hs h

theorem runCore_legal (hs : s.legal = true) (h : runCore s = .next t) : t.legal = true ∧ t.plat = s.plat := by
  unfold runCore at h
  split at h
  · exact runPass_legal hs h
  · split at h
    · exact runNext_legal hs h
    · split at h
      · next q l _ =>
        cases h
        exact service_legal q l hs
      · exact runNext_legal hs h

/-- The release of the RESET pin: no vector is in progress in the reset state. -/
theorem release_legal (hs : s.legal = true) (hp : s.proc = .reset) :
    s.release.legal = true ∧ s.release.plat = s.plat := by
  have hv : s.vec = none := vec_none_of_legal hs (by simp [ProcState.runsVector, hp])
  have hsame : s.release.legal = ({ s with proc := .normal } : State).legal := legal_congr rfl rfl rfl rfl rfl
  exact ⟨hsame.trans (legal_withProc hs hv (by simp)), rfl⟩

theorem runState_legal {held : Bool} (hs : s.legal = true) (h : runState held s = .next t) :
    t.legal = true ∧ t.plat = s.plat := by
  unfold runState at h
  split at h
  case h_1 hp =>
    cases h
    split
    · exact ⟨hs, rfl⟩
    · exact release_legal hs hp
  case h_2 | h_3 =>
    cases h
    exact ⟨hs, rfl⟩
  case h_4 =>
    split at h
    · next q l _ =>
      cases h
      exact service_legal q l hs
    · cases h
      exact ⟨hs, rfl⟩
  case h_5 | h_6 => exact runCore_legal hs h

end Step

/-- Settles O9: the events of the slot keep the state legal, and then the processing state does. -/
theorem everyStepKeepsTheStateLegal : Obligations.EveryStepKeepsTheStateLegal := by
  intro s t hs h
  obtain ⟨hslot, hplat⟩ := takeSlot_legal hs
  obtain ⟨hlegal, hplat'⟩ := runState_legal hslot h
  exact ⟨hlegal, hplat'.trans hplat⟩

end Sys2Proof.Machine
end

section
/-! The limiters and the flags E and U as integer formulas: an accumulator's fields are its value divided by a power of
two (10_state.md R35, R36, R64, R65). -/

namespace Sys2Proof.Machine

/-! ### Fields of an accumulator as integers -/

/-- A field of an accumulator is its value divided by a power of two, modulo the field's width. -/
theorem toInt_field {k n : Nat} (h : k + n ≤ 56) (v : AccVal) :
    (v.extractLsb' k n).toInt = (v.toInt / 2 ^ k).bmod (2 ^ n) := by
  have hwrap : ((v.toInt / 2 ^ k : Int)) % (2 ^ n : Nat) = ((v.toNat : Int) / 2 ^ k) % (2 ^ n : Nat) := by
    have hsplit : (2 : Int) ^ 56 = 2 ^ (56 - k - n) * 2 ^ n * 2 ^ k := by
      rw [← pow_add, ← pow_add]
      congr 1
      omega
    have hpos : (2 : Int) ^ k ≠ 0 := by positivity
    rw [BitVec.toInt_eq_toNat_cond]
    split
    · rfl
    · have hdiv : ((v.toNat : Int) - (2 ^ 56 : Nat)) / 2 ^ k = v.toNat / 2 ^ k - 2 ^ (56 - k - n) * 2 ^ n := by
        rw [Nat.cast_pow, Nat.cast_ofNat, hsplit, Int.sub_mul_ediv_right _ _ hpos]
      rw [hdiv, Nat.cast_pow, Nat.cast_ofNat, Int.sub_mul_emod_self_right]
  rw [BitVec.toInt_extractLsb', Nat.shiftRight_eq_div_pow, Int.bmod_def, Int.bmod_def, hwrap]
  norm_cast

/-- A bit of an accumulator is the parity of its value divided by a power of two. -/
theorem getLsbD_iff_toInt {k : Nat} (h : k < 56) (v : AccVal) : v.getLsbD k = true ↔ v.toInt / 2 ^ k % 2 = 1 := by
  have hbit : (v.extractLsb' k 1).toNat = v.toNat / 2 ^ k % 2 := by
    rw [BitVec.extractLsb'_toNat, Nat.shiftRight_eq_div_pow]
  have hfield := toInt_field (k := k) (n := 1) (by omega) v
  rw [BitVec.toInt_eq_toNat_cond, hbit, Int.bmod_def] at hfield
  rw [← BitVec.testBit_toNat, Nat.testBit_eq_decide_div_mod_eq, decide_eq_true_iff]
  omega

/-- The sign of an accumulator. -/
theorem sign_iff_toInt (v : AccVal) : v.getLsbD 55 = true ↔ v.toInt < 0 := by
  have := v.isLt
  rw [getLsbD_iff_toInt (by omega), BitVec.toInt_eq_toNat_cond]
  omega

/-- A field has bits of both kinds when it is neither 0 nor -1. -/
theorem mixed_iff_toInt {n : Nat} (hn : 0 < n) (w : BitVec n) : mixed w = true ↔ w.toInt ≠ 0 ∧ w.toInt ≠ -1 := by
  have hzero : w.toInt = 0 ↔ w = 0 := by rw [← BitVec.toInt_inj, BitVec.ofNat_eq_ofNat, BitVec.toInt_zero]
  have hones : w.toInt = -1 ↔ w = BitVec.allOnes n := by
    rw [← BitVec.toInt_inj, BitVec.toInt_allOnes, if_pos hn]
  simp only [mixed, ne_eq, hzero, hones, Bool.and_eq_true, bne_iff_ne]

/-! ### E and U -/

/-- The bound of the accumulator's values that fit the fraction (R64). -/
def fractionTop : ScaleMode → Int
  | .off => 2 ^ 47
  | .down => 2 ^ 48
  | .up => 2 ^ 46

/-- E is set exactly off the fraction's range (R64). -/
theorem extInUse_iff (m : ScaleMode) (v : AccVal) :
    extInUse m v = true ↔ v.toInt < -fractionTop m ∨ fractionTop m ≤ v.toInt := by
  have hlo := v.le_toInt
  have hhi := v.toInt_lt
  cases m <;>
    rw [extInUse, mixed_iff_toInt (by omega), toInt_field (by omega), Int.bmod_def, fractionTop] <;>
    omega

/-- U is set exactly where the two highest bits of the fraction are equal (R65). -/
theorem unnormalized_iff (m : ScaleMode) (v : AccVal) :
    unnormalized m v = true ↔
      v.toInt % (2 * fractionTop m) < fractionTop m / 2 ∨ 3 * (fractionTop m / 2) ≤ v.toInt % (2 * fractionTop m) := by
  cases m <;>
    rw [unnormalized, beq_iff_eq, Bool.eq_iff_iff, getLsbD_iff_toInt (by omega), getLsbD_iff_toInt (by omega),
      fractionTop] <;>
    omega

/-- Settles O18: E by the range of the value, U by its place in the fraction's range, and then the two together. -/
theorem extensionAndNormalizationByRange : Obligations.ExtensionAndNormalizationByRange := by
  intro m v
  have hE := extInUse_iff m v
  have hU := unnormalized_iff m v
  refine ⟨hE, hU, ?_⟩
  rw [← Bool.not_eq_true, ← Bool.not_eq_true, hE, hU]
  cases m <;> simp only [fractionTop] <;> omega

/-! ### The limiters -/

/-- The limiter's saturation word: the end of the range on the value's side (R35). -/
theorem toInt_satWord (v : AccVal) : (satWord v).toInt = if v.toInt < 0 then -2 ^ 23 else 2 ^ 23 - 1 := by
  simp only [satWord, sign_iff_toInt]
  split <;> rfl

/-- The 24-bit limiter takes the value divided by the scaling mode's power of two (R35). -/
theorem toInt_limit24 (m : ScaleMode) (v : AccVal) :
    (limit24 m v).toInt = max (-2 ^ 23) (min (2 ^ 23 - 1) (v.toInt / (fractionTop m / 2 ^ 23))) := by
  unfold limit24
  split
  · next h =>
    have hE := (extInUse_iff m v).mp h
    rw [toInt_satWord]
    cases m <;> simp only [fractionTop] at hE ⊢ <;> split <;> omega
  · next h =>
    have hE := mt (extInUse_iff m v).mpr h
    cases m <;> simp only [fractionTop] at hE ⊢ <;> rw [toInt_field (by omega), Int.bmod_def] <;> omega

/-- The doubled fraction of scaling up, bits 46:0 of the accumulator and a 0 below them (R36). -/
theorem toInt_doubled (v : AccVal) : (v.extractLsb' 0 47 ++ 0#1).toInt = 2 * (v.toInt).bmod (2 ^ 47) := by
  rw [BitVec.toInt_append, toInt_field (by omega)]
  simp

/-- The 48-bit limiter takes the value, its half or its double (R36). -/
theorem toInt_limit48 (m : ScaleMode) (v : AccVal) :
    (limit48 m v).toInt =
      max (-2 ^ 47) (min (2 ^ 47 - 1) (v.toInt * 2 ^ 47 / fractionTop m)) := by
  have hmax : (0x7FFFFFFFFFFF : Long).toInt = 2 ^ 47 - 1 := rfl
  have hmin : (0x800000000000 : Long).toInt = -2 ^ 47 := rfl
  unfold limit48
  split
  · next h =>
    have hE := (extInUse_iff m v).mp h
    rw [apply_ite BitVec.toInt, hmin, hmax]
    simp only [sign_iff_toInt]
    cases m <;> simp only [fractionTop] at hE ⊢ <;> split <;> omega
  · next h =>
    have hE := mt (extInUse_iff m v).mpr h
    cases m
    case up =>
      simp only [fractionTop] at hE ⊢
      rw [toInt_doubled, Int.bmod_def]
      omega
    case off | down =>
      simp only [fractionTop] at hE ⊢
      rw [toInt_field (by omega), Int.bmod_def]
      omega

/-- Settles O17: the two limiters as integer formulas, by the range of the value. -/
theorem limitersClamp : Obligations.LimitersClamp := by
  refine ⟨fun m v => ?_, fun m v => ?_⟩
  · rw [toInt_limit24]
    cases m <;> rfl
  · rw [toInt_limit48]
    cases m <;> simp only [fractionTop] <;> omega

end Sys2Proof.Machine
end

section
/-! Single facts about the state: its reset values, the conditions, and the reserved scaling mode. -/

namespace Sys2Proof.Machine

/-! ### Reset (10_state.md R90) -/

theorem reset_legal : State.reset.legal = true := by
  obtain ⟨hx, hy, hp⟩ := reset_memory_wf
  have hsr : State.reset.srLegal = true := by decide
  have hvec : State.reset.vecLegal = true := rfl
  simp only [State.legal, hsr, State.memLegal, hx, hy, hp, hvec, Bool.and_self]

theorem reset_mReg (k : BitVec 3) : State.reset.mReg k = 0xFFFF := by
  revert k
  decide

theorem reset_isPending (q : Source) : State.reset.isPending q = false := by
  cases q <;> rfl

/-- Settles O8, value by value. -/
theorem resetStateIsLegalAndAsListed : Obligations.ResetStateIsLegalAndAsListed :=
  ⟨reset_legal, rfl, rfl, rfl, rfl, reset_mReg, rfl, rfl, rfl, reset_isPending⟩

/-! ### Conditions (10_state.md R74) -/

/-- The opposite condition. -/
def Cond.opposite : Cond → Cond
  | .cc => .cs | .ge => .lt | .ne => .eq | .pl => .mi | .nn => .nr | .ec => .es | .lc => .ls | .gt => .le
  | .cs => .cc | .lt => .ge | .eq => .ne | .mi => .pl | .nr => .nn | .es => .ec | .ls => .lc | .le => .gt

theorem decCond_add_eight (c : BitVec 4) : decCond (c + 8) = Cond.opposite (decCond c) := by
  revert c
  decide

theorem condHolds_opposite (k : Cond) (f : Ccr) : condHolds (Cond.opposite k) f = !condHolds k f := by
  cases k
  case cs | lt | eq | mi | nr | es | ls | le => exact rfl
  all_goals exact (Bool.not_not _).symm

/-- Settles O20: the complement by the opposite condition, each predicate by its definition. -/
theorem conditionsFollowTheTable : Obligations.ConditionsFollowTheTable := by
  refine fun f => ⟨fun c => ?_, ?_⟩
  · rw [decCond_add_eight, condHolds_opposite]
  · simp [decCond, condHolds]

/-! ### The reserved scaling mode (10_state.md R45) -/

section Reserved
variable {s : State}

theorem scale_reserved_iff : s.scale = .error .scalingReserved ↔ s.srBit 11 = true ∧ s.srBit 10 = true := by
  simp only [State.scale, scaleOf, State.srBit]
  cases s.ctl.sr.getLsbD 11 <;> cases s.ctl.sr.getLsbD 10 <;> simp

/-- A class P instruction stops where its operation does, whatever its move. -/
theorem parallel_fault {alu : State → Except Fault AluOut} {f : Fault} (h : alu s = .error f) (mv : ParMove) :
    parallel alu mv s = .fault f := by
  simp only [parallel, h]

theorem parallel_reserved (h : s.scale = .error .scalingReserved) (f : ScaleMode → State → AluOut) (mv : ParMove) :
    parallel (withScale f) mv s = .fault .scalingReserved :=
  parallel_fault (withScale_reserved f h) mv

theorem aluOnly_reserved (h : s.scale = .error .scalingReserved) (f : ScaleMode → State → AluOut) :
    aluOnly (withScale f) s = .fault .scalingReserved := by
  simp only [aluOnly, withScale_reserved f h]

/-- Each operation of `needsScale` begins with the scaling mode. -/
theorem exec_reserved {i : Instr} (hi : needsScale i = true) (h : s.scale = .error .scalingReserved) :
    exec i s = .fault .scalingReserved := by
  cases i with
  | tfrAcc d mv | tfrWord w d mv | addr d mv | addl d mv | subr d mv | subl d mv | addAcc d mv | addLong l d mv
  | addWord w d mv | adc l d mv | subAcc d mv | subLong l d mv | subWord w d mv | sbc l d mv | asl d mv | asr d mv
  | cmpAcc d mv | cmpmAcc d mv | cmpWord w d mv | cmpmWord w d mv | tst d mv | clr d mv | rnd d mv | absAcc d mv
  | neg d mv | mpy neg q d mv | mpyr neg q d mv | mac neg q d mv | macr neg q d mv | notAcc d mv | andWord w d mv
  | orWord w d mv | eorWord w d mv | lsl d mv | lsr d mv => exact parallel_reserved h _ mv
  | inc d | dec d | divStep src d => exact aluOnly_reserved h _
  | norm k d => simp only [exec, execNorm, h]
  | _ => cases hi

theorem readLimited_reserved (h : s.scale = .error .scalingReserved) (d : Acc) :
    s.readLimited d = .error .scalingReserved := by
  simp only [State.readLimited, h]

theorem readBitAcc_reserved (h : s.scale = .error .scalingReserved) (d : Acc) :
    s.readBitAcc d = .error .scalingReserved := by
  simp only [State.readBitAcc, h]

/-- A or B as a move source and as a bit operand are read through the limiter (10_state.md R35). -/
theorem readReg_acc (d : Acc) : s.readReg (.d d.toDReg) = s.readLimited d ∧
    s.readBitReg (.d d.toDReg) = s.readBitAcc d := by
  cases d <;> exact ⟨rfl, rfl⟩

theorem readLong_reserved (h : s.scale = .error .scalingReserved) {l : LOp} (hl : l ∈ [LOp.a, .b, .ab, .ba]) :
    s.readLong l = .error .scalingReserved := by
  cases l
  case a | b => simp only [State.readLong, State.readLong.readAcc, h]
  case ab | ba => simp only [State.readLong, State.readLong.readBoth, readLimited_reserved h]
  all_goals simp at hl

end Reserved

/-- Settles O16: the operations, the limiter and the L: operands begin with the scaling mode, and Tcc does not. -/
theorem reservedScalingModeStops : Obligations.ReservedScalingModeStops := by
  refine fun s => ⟨scale_reserved_iff, fun h11 h10 => ?_⟩
  have h := scale_reserved_iff.mpr ⟨h11, h10⟩
  refine ⟨fun i hi => exec_reserved hi h, fun d => ?_, fun l hl => readLong_reserved h hl,
    fun k src d s2 d2 => ⟨⟨_, rfl⟩, ⟨_, rfl⟩⟩⟩
  obtain ⟨hmove, hbit⟩ := readReg_acc (s := s) d
  rw [hmove, hbit]
  exact ⟨readLimited_reserved h d, readLimited_reserved h d, readBitAcc_reserved h d⟩

end Sys2Proof.Machine
end

section
/-! The system stack: what a push, a pull, and the reads and writes of SSH, SSL and SP do (10_state.md R50, R51,
47_nonparallel_encoding_only.md R441). -/

namespace Sys2Proof.Machine

variable {s t : State}

/-! ### Moves of SP -/

theorem ssLoc_incSp (s : State) : s.incSp.ssLoc = s.ssLoc + 1 := by
  have hsp : s.incSp.ctl.sp = s.ctl.sp + 1 := by rw [incSp_state]
  rw [State.ssLoc, hsp, State.ssLoc]
  exact BitVec.setWidth_add _ _ (by omega)

/-- `SP - 1` changes SP, and the pending flags at location 0. -/
theorem decSp_state (s : State) :
    s.decSp = { s with ctl := { s.ctl with sp := s.ctl.sp - 1 }, pending := s.decSp.pending } := by
  unfold State.decSp
  split <;> rfl

/-- The stack error is pending after a request for it, and every other source as before. -/
theorem isPending_pend_stackError (q : Source) (s : State) :
    (s.pend .stackError).isPending q = (s.isPending q || q == .stackError) := by
  rw [pending_pend]
  by_cases h : q = .stackError <;> simp [h]

/-- `SP + 1` raises the stack error at location 15 and nowhere else (60_exceptions.md R505). -/
theorem isPending_incSp (q : Source) (s : State) :
    s.incSp.isPending q = (s.isPending q || (q == .stackError && s.ssLoc == 15)) := by
  unfold State.incSp
  split
  · next h =>
    rw [isPending_pend_stackError, h, beq_self_eq_true, Bool.and_true]
    rfl
  · next h =>
    rw [beq_eq_false_iff_ne.mpr h, Bool.and_false, Bool.or_false]
    rfl

/-- `SP - 1` raises the stack error at location 0 and nowhere else (60_exceptions.md R505). -/
theorem isPending_decSp (q : Source) (s : State) :
    s.decSp.isPending q = (s.isPending q || (q == .stackError && s.ssLoc == 0)) := by
  unfold State.decSp
  split
  · next h =>
    rw [isPending_pend_stackError, h, beq_self_eq_true, Bool.and_true]
    rfl
  · next h =>
    rw [beq_eq_false_iff_ne.mpr h, Bool.and_false, Bool.or_false]
    rfl

/-- From the stack's depth on there is no storage at the next location. -/
theorem onStack_incSp_off (h : s.ssLoc = 15 ∨ s.plat.stackDepth.val ≤ s.ssLoc.toNat) : s.incSp.onStack = false := by
  have hplat : s.incSp.plat = s.plat := by rw [incSp_state]
  have hloc := ssLoc_incSp s
  rw [State.onStack, hplat, hloc]
  rcases h with h | h
  · rw [h]
    rfl
  · by_cases h15 : s.ssLoc = 15
    · rw [h15]
      rfl
    · have hnext : (s.ssLoc + 1).toNat = s.ssLoc.toNat + 1 := by bv_omega
      simp only [Bool.and_eq_false_iff, decide_eq_false_iff_not, hnext]
      omega

/-! ### The location in use -/

theorem setSsTop_state (v : Addr × Addr) (s : State) :
    s.setSsTop v = { s with ctl := { s.ctl with stack := (s.setSsTop v).ctl.stack } } := by
  unfold State.setSsTop
  split <;> rfl

theorem ssTop_state (s : State) : s.ssTop.2 = { s with draws := s.ssTop.2.draws } := by
  unfold State.ssTop
  split <;> rfl

theorem ssTop_on (h : s.onStack = true) : s.ssTop = (s.ssPair, s) := by
  rw [State.ssTop, if_pos h]

theorem ssTop_off (h : s.onStack = false) :
    s.ssTop = ((Config.ssEmptyHi s.draws, Config.ssEmptyLo s.draws), { s with draws := s.draws + 1 }) := by
  rw [State.ssTop, if_neg (by simp [h])]

theorem onStack_setSsTop (v : Addr × Addr) (s : State) : (s.setSsTop v).onStack = s.onStack := by
  rw [setSsTop_state]
  rfl

/-- On the stack, what is written is read back. -/
theorem ssPair_setSsTop (v : Addr × Addr) (h : s.onStack = true) : (s.setSsTop v).ssPair = v := by
  rw [State.setSsTop, if_pos h]
  exact Vector.getElem_set_self ..

theorem ssTop_setSsTop (v : Addr × Addr) (h : s.onStack = true) : (s.setSsTop v).ssTop.1 = v := by
  rw [ssTop_on ((onStack_setSsTop v s).trans h), ssPair_setSsTop v h]

/-! ### Pushes and writes of SSH -/

section Push
variable (v : Addr × Addr) (s : State)

/-- A store at the next location changes SP, the stack and the pending flags. -/
theorem setSsTop_incSp_state :
    s.incSp.setSsTop v = { s with
      ctl := { s.ctl with sp := s.ctl.sp + 1, stack := (s.incSp.setSsTop v).ctl.stack }
      pending := s.incSp.pending } := by
  refine (setSsTop_state v s.incSp).trans ?_
  generalize (s.incSp.setSsTop v).ctl.stack = k
  rw [incSp_state]

theorem stack_setSsTop_incSp_off (h : s.ssLoc = 15 ∨ s.plat.stackDepth.val ≤ s.ssLoc.toNat) :
    (s.incSp.setSsTop v).ctl.stack = s.ctl.stack := by
  rw [setSsTop_off v (onStack_incSp_off h), incSp_state]

theorem stack_setSsTop_incSp_other (k : Fin 15) (h : k.val + 1 ≠ (s.ssLoc + 1).toNat) :
    (s.incSp.setSsTop v).ctl.stack[k] = s.ctl.stack[k] := by
  rw [setSsTop_other v k (by rwa [ssLoc_incSp]), incSp_state]

/-- SP moves by one, the stack error is raised at 15 alone, and the one location is written. -/
theorem pushed (ht : t = s.incSp.setSsTop v) :
    t.ctl.sp = s.ctl.sp + 1 ∧
    (∀ q, t.isPending q = (s.isPending q || (q == .stackError && s.ssLoc == 15))) ∧
    (s.ssLoc = 15 ∨ s.plat.stackDepth.val ≤ s.ssLoc.toNat → t.ctl.stack = s.ctl.stack) ∧
    (∀ k : Fin 15, k.val + 1 ≠ (s.ssLoc + 1).toNat → t.ctl.stack[k] = s.ctl.stack[k]) ∧
    t = { s with ctl := { s.ctl with sp := t.ctl.sp, stack := t.ctl.stack }, pending := t.pending } := by
  subst ht
  have hstate := setSsTop_incSp_state v s
  have hsp : (s.incSp.setSsTop v).ctl.sp = s.ctl.sp + 1 := by rw [hstate]
  have hpending : (s.incSp.setSsTop v).pending = s.incSp.pending := by rw [hstate]
  refine ⟨hsp, fun q => ?_, stack_setSsTop_incSp_off v s, stack_setSsTop_incSp_other v s, ?_⟩
  · rw [State.isPending, hpending]
    exact isPending_incSp q s
  · rw [hsp, hpending]
    exact hstate

end Push

/-! ### Pulls and reads of SSH -/

/-- SP moves by one, and the stack error is raised at 0 alone. -/
theorem pulled (ht : t = s.ssTop.2.decSp) :
    t.ctl.sp = s.ctl.sp - 1 ∧ t.ctl.stack = s.ctl.stack ∧
    (∀ q, t.isPending q = (s.isPending q || (q == .stackError && s.ssLoc == 0))) := by
  subst ht
  refine ⟨?_, ?_, fun q => ?_⟩
  · rw [decSp_state, ssTop_state]
  · rw [decSp_state, ssTop_state]
  · rw [isPending_decSp, ssTop_state]
    rfl

/-! ### Reads and writes of SSL -/

/-- A write of SSL on the stack changes the low half of the location in use. -/
theorem writeSsl_on (lo : Addr) (h : s.onStack = true) :
    (s.writeSsl lo).ssTop.1 = (s.ssTop.1.1, lo) ∧
    (∀ k : Fin 15, k.val + 1 ≠ s.ssLoc.toNat → (s.writeSsl lo).ctl.stack[k] = s.ctl.stack[k]) ∧
    s.writeSsl lo = { s with ctl := { s.ctl with stack := (s.writeSsl lo).ctl.stack } } := by
  refine ⟨?_, fun k hk => setSsTop_other _ k hk, setSsTop_state _ s⟩
  rw [State.writeSsl, ssTop_setSsTop _ h, ssTop_on h]

/-- Below the depth what is pushed is pulled, and a write of SSH keeps the low half. -/
theorem pull_push (hi lo : Addr) (h : s.ssLoc.toNat < s.plat.stackDepth.val) :
    (s.push hi lo).pull.1 = (hi, lo) ∧ (s.writeSsh hi).readSsh.1 = hi ∧
      (s.writeSsh hi).ssTop.1.2 = s.incSp.ssTop.1.2 := by
  have hon := onStack_incSp h
  refine ⟨ssTop_setSsTop _ hon, ?_, ?_⟩
  · rw [State.readSsh, State.writeSsh, ssTop_setSsTop _ hon]
  · rw [State.writeSsh, ssTop_setSsTop _ hon, ssTop_on hon]

/-- Settles O57: a push and a write of SSH are one store at the next location, a pull and a read of SSH one read of the
location in use. -/
theorem stackErrorsAreRaised : Obligations.StackErrorsAreRaised := by
  intro s hi lo w
  refine ⟨fun t ht => ?_, fun t ht => ?_, fun t ht => ?_, ?_, writeSsl_on lo, setSsTop_off _, rfl, pull_push hi lo⟩
  · rcases ht with ht | ht
    · exact pushed _ s ht
    · exact pushed _ s ht
  · rcases ht with ht | ht
    · exact pulled ht
    · exact pulled ht
  · rcases ht with rfl | rfl
    · rw [State.readSsl, ssTop_state]
      exact ⟨rfl, rfl⟩
    · rw [State.writeSsl, setSsTop_state]
      exact ⟨rfl, rfl⟩
  · rw [State.readSsl, ssTop_state]

end Sys2Proof.Machine
end

section
/-! What a register holds after it is written and gives when it is read, by its width (10_state.md R35, R37,
R38, R58). -/

namespace Sys2Proof.Machine

variable {s : State}

/-! ### Writes -/

/-- A word as an accumulator: a fraction in bits 47:24, sign-extended (10_state.md R38). -/
theorem ext24_eq_ofInt (w : Word) : ext24 w = BitVec.ofInt 56 (w.toInt * 2 ^ 24) := by
  rw [ext24, BitVec.signExtend, BitVec.toInt_append]
  simp [mul_comm]

theorem raw_writeD_word {x : DReg} (w : Word)
    (h : x = .x0 ∨ x = .x1 ∨ x = .y0 ∨ x = .y1 ∨ x = .a0 ∨ x = .a1 ∨ x = .b0 ∨ x = .b1) :
    (s.writeD x w).raw (.d x) = w.setWidth 56 := by
  rcases h with rfl | rfl | rfl | rfl | rfl | rfl | rfl | rfl <;> simp [State.writeD, DAlu.putD, State.raw]

theorem raw_writeD_ext {x : DReg} (w : Word) (h : x = .a2 ∨ x = .b2) :
    (s.writeD x w).raw (.d x) = (w.setWidth 8).setWidth 56 := by
  rcases h with rfl | rfl <;> simp only [State.writeD, DAlu.putD, State.raw, accExt_accJoin]

theorem raw_writeD_acc {x : DReg} (w : Word) (h : x = .a ∨ x = .b) :
    (s.writeD x w).raw (.d x) = BitVec.ofInt 56 (w.toInt * 2 ^ 24) := by
  rw [← ext24_eq_ofInt]
  rcases h with rfl | rfl <;> rfl

theorem raw_writeReg_addr {q : Reg} (w : Word) (h : (∃ k, q = .r k ∨ q = .n k ∨ q = .m k) ∨ q = .c .la ∨ q = .c .lc) :
    (s.writeReg q w).raw q = (w.setWidth 16).setWidth 56 := by
  rcases h with ⟨k, rfl | rfl | rfl⟩ | rfl | rfl
  · simp [State.writeReg, State.raw, State.rReg]
  · simp [State.writeReg, State.raw, State.nReg]
  · simp [State.writeReg, State.raw, State.mReg]
  · rfl
  · rfl

/-- SSH and SSL after a store at a location of the stack (10_state.md R51). -/
theorem raw_setSsTop (v : Addr × Addr) (h : s.onStack = true) :
    (s.setSsTop v).raw (.c .ssh) = v.1.setWidth 56 ∧ (s.setSsTop v).raw (.c .ssl) = v.2.setWidth 56 := by
  have hon : (s.setSsTop v).onStack = true := (onStack_setSsTop v s).trans h
  simp only [State.raw, State.raw.stackHalves, if_pos hon, ssPair_setSsTop v h, and_self]

/-! ### Reads -/

/-- The registers that a move reads as the word they hold, zero-extended. -/
def plainRegs : List Reg :=
  [.d .x0, .d .x1, .d .y0, .d .y1, .d .a0, .d .a1, .d .b0, .d .b1, .c .sr, .c .omr, .c .sp, .c .la, .c .lc]

/-- A register that a move zero-extends gives what it holds. -/
theorem toNat_setWidth_word {n : Nat} (hn : n ≤ 24) (v : BitVec n) :
    (v.setWidth 24).toNat = (v.setWidth 56).toNat := by
  rw [BitVec.toNat_setWidth_of_le hn, BitVec.toNat_setWidth_of_le (by omega)]

theorem readReg_word {q : Reg} (h : q ∈ plainRegs ∨ ∃ k, q = .r k ∨ q = .n k ∨ q = .m k) :
    ∃ v : Word, s.readReg q = .ok (v, s) ∧ v.toNat = (s.raw q).toNat := by
  cases q with
  | d x =>
    cases x
    case a | b | a2 | b2 => simp [plainRegs] at h
    all_goals exact ⟨_, rfl, (BitVec.toNat_setWidth_of_le (by omega)).symm⟩
  | c x =>
    cases x
    case ssh | ssl => simp [plainRegs] at h
    all_goals exact ⟨_, rfl, toNat_setWidth_word (by omega) _⟩
  | r k | n k | m k => exact ⟨_, rfl, toNat_setWidth_word (by omega) _⟩

/-- A bit instruction reads a register as a move does, but A, B, A2 and B2 (47_nonparallel_encoding_only.md R442). -/
theorem readBitReg_eq {q : Reg} (h : q ∉ [Reg.d .a, .d .b, .d .a2, .d .b2]) : s.readBitReg q = s.readReg q := by
  cases q with
  | d x =>
    cases x
    case a | b | a2 | b2 => simp at h
    all_goals rfl
  | r k | n k | m k | c x => rfl

/-- A2 and B2: sign-extended by a move, zero-extended by a bit instruction. -/
theorem read_ext {x : DReg} {d : Acc} (h : x = .a2 ∧ d = .a ∨ x = .b2 ∧ d = .b) :
    (∃ v : Word, s.readReg (.d x) = .ok (v, s) ∧ v.toInt = (accExt (s.acc d)).toInt) ∧
    (∃ v : Word, s.readBitReg (.d x) = .ok (v, s) ∧ v.toNat = (accExt (s.acc d)).toNat) := by
  have hsign (e : BitVec 8) : (e.signExtend 24).toInt = e.toInt := BitVec.toInt_signExtend_of_le (by omega)
  have hzero (e : BitVec 8) : (e.setWidth 24).toNat = e.toNat := BitVec.toNat_setWidth_of_le (by omega)
  rcases h with ⟨rfl, rfl⟩ | ⟨rfl, rfl⟩
  · exact ⟨⟨_, rfl, hsign _⟩, ⟨_, rfl, hzero _⟩⟩
  · exact ⟨⟨_, rfl, hsign _⟩, ⟨_, rfl, hzero _⟩⟩

/-! ### The limiter's flags -/

/-- Two status registers that agree off `bits` differ at most there. -/
theorem xor_and_eq_zero {a b bits : BitVec 16} (h : ∀ k, bits.getLsbD k = false → a.getLsbD k = b.getLsbD k) :
    (a ^^^ b) &&& ~~~bits = 0 := by
  refine BitVec.eq_of_getLsbD_eq fun k _ => ?_
  cases hk : bits.getLsbD k <;> simp [hk, h k]

/-- S and L after a write of the CCR: S only where the part has the bit (10_state.md R66). -/
theorem ccr_setCcr_sl (k : Ccr) (s : State) :
    (s.setCcr k).ccr.l = k.l ∧ (s.setCcr k).ccr.s = (s.plat.hasSBit && k.s) := by
  obtain ⟨-, -, -, -, -, -, hl, hs⟩ := ccr_bits k
  have h6 : s.plat.srMask.getLsbD 6 = true := by
    simp only [Platform.srMask]
    cases s.plat.hasSBit <;> cases s.plat.hasDmBit <;> rfl
  have h7 : s.plat.srMask.getLsbD 7 = s.plat.hasSBit := by
    simp only [Platform.srMask]
    cases s.plat.hasSBit <;> cases s.plat.hasDmBit <;> rfl
  simp only [State.ccr, ccrOf, State.setCcr, State.setSr_ctl, BitVec.getLsbD_and, withCcr_bit, Nat.reduceLT, if_true,
    hl, hs, h6, h7, Bool.and_true, true_and]
  exact Bool.and_comm _ _

/-- A move reads A or B through the limiter: L where it limits, and S (10_state.md R35, R66). -/
theorem readReg_limited {m : ScaleMode} (d : Acc) (hm : s.scale = .ok m) (hs : s.srLegal = true) :
    ∃ u, s.readReg (.d d.toDReg) = .ok (limit24 m (s.acc d), u) ∧
      u = { s with ctl := { s.ctl with sr := u.ctl.sr } } ∧ (u.ctl.sr ^^^ s.ctl.sr) &&& 0xFF3F = 0 ∧
      u.ccr.l = (s.ccr.l || extInUse m (s.acc d)) ∧
      u.ccr.s = (s.plat.hasSBit && s.plat.sBitFn.next s.ccr.s m (s.acc d)) := by
  obtain ⟨hmove, -⟩ := readReg_acc (s := s) d
  obtain ⟨hl, hsbit⟩ := ccr_setCcr_sl
    { s.ccr with s := s.plat.sBitFn.next s.ccr.s m (s.acc d), l := s.ccr.l || extInUse m (s.acc d) } s
  refine ⟨s.limited m (s.acc d), ?_, rfl, ?_, hl, hsbit⟩
  · simp only [hmove, State.readLimited, hm]
  · exact xor_and_eq_zero ((Effect.limited m (s.acc d) s).status hs)

/-- A bit instruction reads A or B through the limiter and leaves S alone (47_nonparallel_encoding_only.md R445). -/
theorem readBitReg_limited {m : ScaleMode} (d : Acc) (hm : s.scale = .ok m) (hs : s.srLegal = true) :
    ∃ u, s.readBitReg (.d d.toDReg) = .ok (limit24 m (s.acc d), u) ∧
      u = { s with ctl := { s.ctl with sr := u.ctl.sr } } ∧ (u.ctl.sr ^^^ s.ctl.sr) &&& 0xFFBF = 0 ∧
      u.ccr.l = (s.ccr.l || extInUse m (s.acc d)) := by
  obtain ⟨-, hbit⟩ := readReg_acc (s := s) d
  obtain ⟨hl, -⟩ := ccr_setCcr_sl { s.ccr with l := s.ccr.l || extInUse m (s.acc d) } s
  refine ⟨s.limitedL m (s.acc d), ?_, rfl, ?_, hl⟩
  · simp only [hbit, State.readBitAcc, hm]
  · exact xor_and_eq_zero ((Effect.limitedL m (s.acc d) s).status hs)

/-! ### SSH and SSL read -/

/-- SSH is pulled and SSL is not; off the stack each gives a free value (10_state.md R51; assumption 5). -/
theorem read_stack (s : State) :
    ∃ (v w : Word) (u x : State), s.readReg (.c .ssh) = .ok (v, u) ∧ s.readReg (.c .ssl) = .ok (w, x) ∧
      (s.onStack = true →
        v.toNat = s.ssPair.1.toNat ∧ u = { s with ctl := { s.ctl with sp := s.ctl.sp - 1 } } ∧
        w.toNat = s.ssPair.2.toNat ∧ x = s) ∧
      (s.onStack = false →
        v.toNat = (Config.ssEmptyHi s.draws).toNat ∧ u.ctl.sp = s.ctl.sp - 1 ∧
        u = { s with ctl := { s.ctl with sp := u.ctl.sp }, draws := s.draws + 1, pending := u.pending } ∧
        w.toNat = (Config.ssEmptyLo s.draws).toNat ∧ x = { s with draws := s.draws + 1 }) := by
  have hzero (a : Addr) : (a.setWidth 24).toNat = a.toNat := BitVec.toNat_setWidth_of_le (by omega)
  refine ⟨_, _, _, _, rfl, rfl, fun h => ?_, fun h => ?_⟩
  · have hloc := onStack_ne h
    simp only [State.readSsh, State.readSsl, ssTop_on h, hzero, State.decSp, if_neg hloc, and_self]
  · have hdec := decSp_state { s with draws := s.draws + 1 }
    simp only [State.readSsh, State.readSsl, ssTop_off h, hzero, true_and, and_true]
    exact ⟨by rw [hdec], by rw [hdec]⟩

/-- Settles O23: the writes by kind of register, the frame by `Effect.writeReg`, the reads by kind of register. -/
theorem registersAreReadAndWrittenByWidth : Obligations.RegistersAreReadAndWrittenByWidth := by
  refine ⟨fun s w => ⟨fun _ => raw_writeD_word w, fun _ => raw_writeD_ext w, fun _ => raw_writeD_acc w,
      fun _ => raw_writeReg_addr w, rfl, rfl, rfl, fun hon => (raw_setSsTop _ hon).2,
      fun hdepth => (raw_setSsTop _ (onStack_incSp hdepth)).1, ?_, fun r => (Effect.writeReg r w s).raw⟩,
    fun s q => ⟨readReg_word, readBitReg_eq⟩,
    fun s => ⟨fun _ _ => read_ext, fun d m hm hs => ⟨readReg_limited d hm hs, readBitReg_limited d hm hs⟩,
      read_stack s⟩⟩
  obtain ⟨hsp, -⟩ := pushed _ s (t := s.writeSsh (w.setWidth 16)) rfl
  exact hsp

end Sys2Proof.Machine
end

section
/-! Addressing modes: their code bits, the address each one uses, and Rn after it (20_memory.md R120, R121). -/

namespace Sys2Proof.Machine

/-! ### The code of a mode (R121) -/

/-- A mode's code decodes to the mode. -/
theorem decMode_encMode (m : AguMode) : decMode (encMode m) = some m := by cases m <;> rfl

/-- A code that decodes is the code of its mode. -/
theorem encMode_of_decMode {f : BitVec 3} {m : AguMode} (h : decMode f = some m) : encMode m = f := by
  revert f
  cases m <;> decide

/-- Settles O3, from the table of the codes. -/
theorem modeBitsFollowTheNotes : Obligations.ModeBitsFollowTheNotes := by
  refine ⟨fun f m => ⟨encMode_of_decMode, fun h => h ▸ decMode_encMode m⟩, fun m => ?_, fun a v => ?_⟩
  · cases m <;> decide
  · simp [encEa, encEaImm]

/-! ### The address used, and Rn after it (R120) -/

section Modes
variable {s : State} {mode : AguMode} {k : BitVec 3} {t : Addr}

/-- The four modes that update Rn afterwards use the old Rn. -/
theorem resolveInd_postUpdate (hm : mode ∈ [AguMode.postSubN, .postAddN, .postDec, .postInc])
    (h : s.stepped mode k = .ok t) : s.resolveInd ⟨mode, k⟩ = .ok (s.rReg k, s.setR k t) := by
  cases mode <;> simp at hm <;> simp only [State.resolveInd, h]

/-- Predecrement uses the new Rn. -/
theorem resolveInd_preDec (h : s.stepped .preDec k = .ok t) :
    s.resolveInd ⟨.preDec, k⟩ = .ok (t, s.setR k t) := by
  simp only [State.resolveInd, h]

/-- The indexed mode uses the sum and leaves Rn alone. -/
theorem resolveInd_indexed (h : s.stepped .indexed k = .ok t) : s.resolveInd ⟨.indexed, k⟩ = .ok (t, s) := by
  simp only [State.resolveInd, h]

/-- No Update uses Rn as it is. -/
theorem resolveInd_noUpdate (s : State) (k : BitVec 3) : s.resolveInd ⟨.noUpdate, k⟩ = .ok (s.rReg k, s) := rfl

end Modes

/-- Settles O22. -/
theorem addressingModesUseAndUpdateRn : Obligations.AddressingModesUseAndUpdateRn := by
  intro s k t
  refine ⟨resolveInd_noUpdate s k, fun h => ?subN, fun h => ⟨?addN, resolveInd_indexed h⟩,
    fun h => ⟨?dec, resolveInd_preDec h⟩, fun h => ?inc, fun a => rfl⟩
  case subN | addN | dec | inc => exact resolveInd_postUpdate (by decide) h

end Sys2Proof.Machine
end

section
/-! Address arithmetic by Mn (20_memory.md R124, R125). -/

namespace Sys2Proof.Machine

/-! ### The cases of Mn -/

section Modifier
variable {r k m : Addr} {sub : Bool}

/-- Linear arithmetic. -/
theorem aguAdd_linear (hm : m = 0xFFFF) : aguAdd r k sub m = .ok (if sub then r - k else r + k) := if_pos hm

/-- Reverse-carry arithmetic. -/
theorem aguAdd_reverse (hm : m = 0) : aguAdd r k sub m = .ok (reverseAdd r k sub) := by
  subst hm
  rfl

/-- The reserved modifiers stop. -/
theorem aguAdd_reserved (hlo : 0x8000 ≤ m.toNat) (hhi : m.toNat ≤ 0xFFFE) :
    aguAdd r k sub m = .error .modifierReserved := by
  have hlinear : m ≠ 0xFFFF := by bv_omega
  have hzero : m ≠ 0 := by bv_omega
  simp only [aguAdd, if_neg hlinear, if_neg hzero, if_neg (Nat.not_lt.2 hlo)]

/-- Modulo arithmetic. -/
theorem aguAdd_modulo (hlo : 1 ≤ m.toNat) (hhi : m.toNat < 0x8000) :
    aguAdd r k sub m = moduloAdd r m.toNat (if sub then -k.toInt else k.toInt) := by
  have hlinear : m ≠ 0xFFFF := by bv_omega
  have hzero : m ≠ 0 := by bv_omega
  simp only [aguAdd, if_neg hlinear, if_neg hzero, if_pos hhi]

/-- Bit `j` of a word reversed is its bit `15 - j`. -/
theorem reverse_bit (v : Addr) {j : Nat} (hj : j < 16) : v.reverse.getLsbD j = v.getLsbD (15 - j) := by
  rw [BitVec.getLsbD_reverse]
  simp [BitVec.getMsbD, hj]

/-- In reverse-carry arithmetic the carry runs from the most significant bit down. -/
theorem reverseAdd_bit {j : Nat} (hj : j < 16) :
    (reverseAdd r k sub).getLsbD j =
      (if sub then r.reverse - k.reverse else r.reverse + k.reverse).getLsbD (15 - j) := by
  cases sub <;> exact reverse_bit _ hj

end Modifier

/-! ### Modulo M + 1 (R125) -/

section Modulo
variable {r m j : Nat} {k : Int}

/-- The block is the least power of two not below M + 1. -/
theorem blockSize_eq (hm : 1 ≤ m) (hlo : m + 1 ≤ 2 ^ j) (hhi : 2 ^ j < 2 * (m + 1)) : blockSize m = 2 ^ j := by
  cases j with
  | zero => omega
  | succ j =>
    have hlog : m.log2 = j := (Nat.log2_eq_iff (by omega)).2 ⟨by omega, by omega⟩
    rw [blockSize, hlog]

/-- The whole block of an address lies in the address space, whose size is a power of two too. -/
theorem block_fits (hj : 2 ^ j ≤ 65536) (hr : r < 65536) : 2 ^ j * (r / 2 ^ j) + 2 ^ j ≤ 65536 := by
  obtain ⟨c, hc⟩ : 2 ^ j ∣ 2 ^ 16 := Nat.pow_dvd_pow 2 ((Nat.pow_le_pow_iff_right (by decide)).1 hj)
  have hlt : r / 2 ^ j < c := Nat.div_lt_of_lt_mul (hc ▸ hr)
  calc 2 ^ j * (r / 2 ^ j) + 2 ^ j = 2 ^ j * (r / 2 ^ j + 1) := (Nat.mul_succ _ _).symm
    _ ≤ 2 ^ j * c := Nat.mul_le_mul_left _ hlt
    _ = 65536 := hc.symm

/-- Inside the buffer, an offset of at most the modulus wraps to a place in the buffer, by the modulus at most once. -/
theorem moduloWrap_inside (hin : r % blockSize m ≤ m) (hk : k.natAbs ≤ m + 1) :
    ∃ t : Int, moduloWrap r m (r + k) = BitVec.ofInt 16 t ∧ (r - r % blockSize m : Nat) ≤ t ∧
      t ≤ (r - r % blockSize m : Nat) + m ∧ (t - r - k) % (m + 1) = 0 := by
  have hstart : r - r % blockSize m + r % blockSize m = r := Nat.sub_add_cancel (Nat.mod_le _ _)
  unfold moduloWrap
  generalize r - r % blockSize m = lo at hstart ⊢
  dsimp only
  split
  · refine ⟨_, rfl, by omega, by omega, Int.emod_eq_zero_of_dvd ⟨-1, by ring⟩⟩
  · split
    · exact ⟨_, rfl, by omega, by omega, Int.emod_eq_zero_of_dvd ⟨1, by ring⟩⟩
    · exact ⟨_, rfl, by omega, by omega, Int.emod_eq_zero_of_dvd ⟨0, by ring⟩⟩

/-- An address in the first `m + 1` places of the block that starts at `b * q`. -/
theorem block_place {b q x : Nat} (hx : x < b) : (b * q + x) / b = q ∧ (b * q + x) % b = x := by
  have hb : 0 < b := by omega
  constructor
  · rw [Nat.mul_add_div hb, Nat.div_eq_of_lt hx, Nat.add_zero]
  · rw [Nat.mul_add_mod, Nat.mod_eq_of_lt hx]

/-- The same in the address space: the sum keeps the block and the place modulo M + 1. -/
theorem moduloAdd_inside {r : Addr} (hm : 1 ≤ m) (hm' : m < 0x8000) (hlo : m + 1 ≤ 2 ^ j)
    (hhi : 2 ^ j < 2 * (m + 1)) (hin : r.toNat % 2 ^ j ≤ m) (hk : k.natAbs ≤ m + 1) :
    ∃ t, moduloAdd r m k = .ok t ∧ t.toNat / 2 ^ j = r.toNat / 2 ^ j ∧ t.toNat % 2 ^ j ≤ m ∧
      ((t.toNat : Int) - r.toNat - k) % (m + 1) = 0 := by
  have hblock := blockSize_eq hm hlo hhi
  have hfits := block_fits (j := j) (by omega) r.isLt
  have hstart : r.toNat - r.toNat % 2 ^ j = 2 ^ j * (r.toNat / 2 ^ j) := by
    have := Nat.div_add_mod r.toNat (2 ^ j)
    omega
  obtain ⟨t, hwrap, hge, hle, hmod⟩ := moduloWrap_inside (hblock ▸ hin) hk
  rw [hblock, hstart] at hge hle
  obtain ⟨x, hx⟩ := Int.eq_ofNat_of_zero_le (a := t - (2 ^ j * (r.toNat / 2 ^ j) : Nat)) (by omega)
  have ht : t = (2 ^ j * (r.toNat / 2 ^ j) + x : Nat) := by
    rw [Nat.cast_add]
    omega
  have hnat : (BitVec.ofInt 16 t).toNat = 2 ^ j * (r.toNat / 2 ^ j) + x := by
    rw [ht, BitVec.ofInt_natCast, BitVec.toNat_ofNat, Nat.mod_eq_of_lt (by omega)]
  obtain ⟨hdiv, hrem⟩ := block_place (b := 2 ^ j) (q := r.toNat / 2 ^ j) (x := x) (by omega)
  refine ⟨BitVec.ofInt 16 t, ?_, ?_, ?_, ?_⟩
  · rw [moduloAdd, hblock, if_neg (by omega), if_pos hk, hwrap]
  · rw [hnat, hdiv]
  · rw [hnat, hrem]
    omega
  · rw [hnat, ← ht]
    exact hmod

/-- Outside the buffer the arithmetic stops. -/
theorem moduloAdd_outside {r : Addr} (hblock : blockSize m = 2 ^ j) (hout : m < r.toNat % 2 ^ j) :
    moduloAdd r m k = .error .outsideModulo := by
  rw [moduloAdd, hblock, if_pos hout]

/-- A longer offset moves by whole blocks, or stops. -/
theorem moduloAdd_long {r : Addr} (hblock : blockSize m = 2 ^ j) (hin : r.toNat % 2 ^ j ≤ m)
    (hk : m + 1 < k.natAbs) :
    moduloAdd r m k = if k.natAbs % 2 ^ j = 0 then .ok (r + BitVec.ofInt 16 k) else .error .moduloOffset := by
  rw [moduloAdd, hblock, if_neg (Nat.not_lt.2 hin), if_neg (Nat.not_le.2 hk)]

end Modulo

/-- Settles O21, by the four ranges of Mn and, in the modulo range, by the place of Rn and the length of the offset. -/
theorem addressArithmeticFollowsTheModifier : Obligations.AddressArithmeticFollowsTheModifier := by
  refine ⟨fun r k m sub => ⟨aguAdd_linear, fun hm => ?reverse, aguAdd_reserved⟩,
    fun r k m sub j hm hm' hlo hhi => ?modulo⟩
  case reverse => exact ⟨_, aguAdd_reverse hm, fun j => reverseAdd_bit⟩
  case modulo =>
    have hblock := blockSize_eq hm hlo hhi
    rw [aguAdd_modulo hm hm']
    refine ⟨moduloAdd_outside hblock, fun hin => ⟨moduloAdd_inside hm hm' hlo hhi hin, fun hk => ?_⟩⟩
    rw [moduloAdd_long hblock hin hk]
    exact ⟨fun h => if_pos h, fun h => if_neg h⟩

end Sys2Proof.Machine
end

section
/-! Stores: a word stored is read back, and the accesses of the I/O range (20_memory.md R104, R107). -/

namespace Sys2Proof.Machine

section Stores
variable {sp : DSpace} {a : Addr}

/-- A word stored in memory is read back. -/
theorem loadData_storeData (h : isIo a = false) (v : Word) (s : State) :
    (s.storeData sp a v).loadData sp a = (v, s.storeData sp a v) := by
  rw [loadData_memory h, storeData_peek, if_pos ⟨h, rfl, rfl⟩]

/-- Every other word of memory stays. -/
theorem peek_storeData_other {sp' : Space} {a' : Addr} (h : (sp', a') ≠ (sp.toSpace, a)) (v : Word) (s : State) :
    (s.storeData sp a v).peek sp' a' = s.peek sp' a' := by
  rw [storeData_peek, if_neg]
  rintro ⟨-, rfl, rfl⟩
  exact h rfl

theorem storeData_bcr (v : Word) (s : State) : s.storeData .x bcrAddr v = { s with bcr := v.setWidth 16 } := rfl

theorem loadData_bcr (s : State) : s.loadData .x bcrAddr = (s.bcr.setWidth 24, s) := rfl

theorem storeData_ipr (v : Word) (s : State) : s.storeData .x iprAddr v = { s with ipr := v.setWidth 16 } := rfl

theorem loadData_ipr (s : State) : s.loadData .x iprAddr = (s.ipr.setWidth 24, s) := rfl

/-- Elsewhere in the I/O range a store is one message. -/
theorem storeData_io (hio : isIo a = true) (hbcr : (sp, a) ≠ (.x, bcrAddr)) (hipr : (sp, a) ≠ (.x, iprAddr))
    (v : Word) (s : State) : s.storeData sp a v = s.tell (.write sp a v) := by
  rw [State.storeData, if_pos hio, if_neg fun h => hbcr (Prod.ext h.1 h.2), if_neg fun h => hipr (Prod.ext h.1 h.2)]

/-- Elsewhere in the I/O range a load is one message, and a free value. -/
theorem loadData_io (hio : isIo a = true) (hbcr : (sp, a) ≠ (.x, bcrAddr)) (hipr : (sp, a) ≠ (.x, iprAddr))
    (s : State) : s.loadData sp a = s.hostRead sp a := by
  rw [State.loadData, if_pos hio, if_neg fun h => hbcr (Prod.ext h.1 h.2), if_neg fun h => hipr (Prod.ext h.1 h.2)]

end Stores

/-- Settles O24, by where the address stands: in memory, at BCR or IPR, elsewhere in the I/O range. -/
theorem storesAreReadBack : Obligations.StoresAreReadBack := by
  intro s sp a v
  refine ⟨fun hmem => ⟨loadData_storeData hmem v s, fun sp' a' h => peek_storeData_other h v s⟩, ?bcr, ?ipr,
    fun hio hbcr hipr => ⟨storeData_io hio hbcr hipr v s, ?read⟩⟩
  case bcr => rw [storeData_bcr, loadData_bcr]
  case ipr => rw [storeData_ipr, loadData_ipr]
  case read =>
    rw [loadData_io hio hbcr hipr]
    rfl

end Sys2Proof.Machine
end

section
/-! The operations that store nothing: `store` is the part of the state that a store can change, and they keep it. -/

namespace Sys2Proof.Machine

/-- What a store can change: the memories, BCR and IPR (20_memory.md R104, R107). -/
def State.store (s : State) : Mems × BitVec 16 × BitVec 16 := (s.mem, s.bcr, s.ipr)

variable {s t : State}

/-! ### Registers, flags and messages -/

@[simp] theorem store_setSr (v : BitVec 16) (s : State) : (s.setSr v).store = s.store := rfl
@[simp] theorem store_setLf (b : Bool) (s : State) : (s.setLf b).store = s.store := rfl
@[simp] theorem store_setPc (a : Addr) (s : State) : (s.setPc a).store = s.store := rfl
@[simp] theorem store_setAcc (d : Acc) (v : AccVal) (s : State) : (s.setAcc d v).store = s.store := rfl
@[simp] theorem store_writeD (x : DReg) (w : Word) (s : State) : (s.writeD x w).store = s.store := rfl
@[simp] theorem store_setR (k : BitVec 3) (v : Addr) (s : State) : (s.setR k v).store = s.store := rfl
@[simp] theorem store_setN (k : BitVec 3) (v : Addr) (s : State) : (s.setN k v).store = s.store := rfl
@[simp] theorem store_setM (k : BitVec 3) (v : Addr) (s : State) : (s.setM k v).store = s.store := rfl
@[simp] theorem store_tell (m : HostMsg) (s : State) : (s.tell m).store = s.store := rfl
@[simp] theorem store_pend (q : Source) (s : State) : (s.pend q).store = s.store := rfl
@[simp] theorem store_setFlags (f : FlagUpdate) (s : State) : (s.setFlags f).store = s.store := rfl
@[simp] theorem store_setC (b : Bool) (s : State) : (s.setC b).store = s.store := rfl
@[simp] theorem store_limited (m : ScaleMode) (v : AccVal) (s : State) : (s.limited m v).store = s.store := rfl
@[simp] theorem store_limitedL (m : ScaleMode) (v : AccVal) (s : State) : (s.limitedL m v).store = s.store := rfl

@[simp] theorem store_putAlu (o : AluOut) (s : State) : (s.putAlu o).store = s.store := by
  obtain ⟨_ | ⟨d, v⟩, _ | f⟩ := o <;> rfl

/-! ### The stack, the program counter, and loads -/

@[simp] theorem store_incSp (s : State) : s.incSp.store = s.store := (congrArg State.store incSp_state).trans rfl
@[simp] theorem store_decSp (s : State) : s.decSp.store = s.store := (congrArg State.store (decSp_state s)).trans rfl
@[simp] theorem store_ssTop (s : State) : s.ssTop.2.store = s.store := (congrArg State.store (ssTop_state s)).trans rfl
@[simp] theorem store_setSsTop (v : Addr × Addr) (s : State) : (s.setSsTop v).store = s.store :=
  (congrArg State.store (setSsTop_state v s)).trans rfl
@[simp] theorem store_push (hi lo : Addr) (s : State) : (s.push hi lo).store = s.store := by simp [State.push]
@[simp] theorem store_pull (s : State) : s.pull.2.store = s.store := by simp [State.pull]
@[simp] theorem store_advance (n : Nat) (s : State) : (s.advance n).store = s.store :=
  (congrArg State.store (advance_state n s)).trans rfl
@[simp] theorem store_loadData (sp : DSpace) (a : Addr) (s : State) : (s.loadData sp a).2.store = s.store :=
  (congrArg State.store (loadData_state sp a s)).trans rfl
@[simp] theorem store_testMem (sp : DSpace) (a : Addr) (n : BitVec 5) (s : State) :
    (s.testMem sp a n).store = s.store := by simp [State.testMem]

theorem store_loadLong (a : Addr) (l : LOp) (s : State) : (s.loadLong a l).store = s.store :=
  (store_loadData .y a _).trans (store_loadData .x a s)

@[simp] theorem store_writeReg (r : Reg) (w : Word) (s : State) : (s.writeReg r w).store = s.store := by
  cases r with
  | d x => rfl
  | r k | n k | m k => rfl
  | c x =>
    cases x with
    | ssh => simp [State.writeReg, State.writeCtl, State.writeSsh]
    | ssl => simp [State.writeReg, State.writeCtl, State.writeSsl]
    | sr | omr | sp | la | lc => rfl

/-! ### Registers and addresses as operands -/

theorem store_readLimited {d : Acc} {v : Word} (h : s.readLimited d = .ok (v, t)) : t.store = s.store := by
  unfold State.readLimited at h
  split at h <;> cases h
  rfl

theorem store_readBitAcc {d : Acc} {v : Word} (h : s.readBitAcc d = .ok (v, t)) : t.store = s.store := by
  unfold State.readBitAcc at h
  split at h <;> cases h
  rfl

theorem store_readCtl (x : CtlReg) (s : State) : (s.readCtl x).2.store = s.store := by
  cases x with
  | ssh => exact store_pull s
  | ssl => exact store_ssTop s
  | sr | omr | sp | la | lc => rfl

theorem store_readReg {r : Reg} {v : Word} (h : s.readReg r = .ok (v, t)) : t.store = s.store := by
  cases r with
  | d x =>
    cases x
    case a | b => exact store_readLimited h
    all_goals
      cases h
      rfl
  | r k | n k | m k =>
    cases h
    rfl
  | c x =>
    injection h with h
    have hread : (s.readCtl x).2 = t := congrArg Prod.snd h
    exact hread ▸ store_readCtl x s

theorem store_readBitReg {r : Reg} {v : Word} (h : s.readBitReg r = .ok (v, t)) : t.store = s.store := by
  cases r with
  | d x =>
    cases x
    case a | b => exact store_readBitAcc h
    all_goals
      cases h
      rfl
  | r k => exact store_readReg (r := .r k) h
  | n k => exact store_readReg (r := .n k) h
  | m k => exact store_readReg (r := .m k) h
  | c x => exact store_readReg (r := .c x) h

theorem store_readLong {l : LOp} {v : Word × Word} (h : s.readLong l = .ok (v, t)) : t.store = s.store := by
  have hacc {d : Acc} (h : State.readLong.readAcc s d = .ok (v, t)) : t.store = s.store := by
    unfold State.readLong.readAcc at h
    split at h <;> cases h
    rfl
  have hboth {d e : Acc} (h : State.readLong.readBoth s d e = .ok (v, t)) : t.store = s.store := by
    unfold State.readLong.readBoth at h
    split at h
    · cases h
    next x u hx =>
    split at h
    · cases h
    next y w hy =>
    cases h
    exact (store_readLimited hy).trans (store_readLimited hx)
  cases l
  case a | b => exact hacc h
  case ab | ba => exact hboth h
  all_goals
    cases h
    rfl

theorem store_resolve {ea : Ea} {a : Addr} (h : s.resolve ea = .ok (a, t)) : t.store = s.store :=
  (congrArg State.store (resolve_state h)).trans rfl

theorem store_resolveInd {j : Ind} {a : Addr} (h : s.resolveInd j = .ok (a, t)) : t.store = s.store :=
  store_resolve (ea := .ind j) h

theorem store_loadEa {sp : DSpace} {src : EaImm} {v : Word} (h : s.loadEa sp src = .ok (v, t)) :
    t.store = s.store := by
  cases src with
  | imm w =>
    cases h
    rfl
  | mem ea =>
    simp only [State.loadEa] at h
    split at h
    · cases h
    next a u hu =>
    injection h with h
    have hload : (u.loadData sp a).2 = t := congrArg Prod.snd h
    rw [← hload, store_loadData, store_resolve hu]

theorem store_fetchSide {sp : DSpace} {w : Dir} {r : Reg} {a : Addr} {v : Word}
    (h : s.fetchSide sp w r a = .ok (v, t)) : t.store = s.store := by
  cases w with
  | toReg =>
    injection h with h
    have hload : (s.loadData sp a).2 = t := congrArg Prod.snd h
    rw [← hload, store_loadData]
  | toMem => exact store_readReg h

/-! ### Jumps -/

@[simp] theorem store_jump (n : Nat) (a : Addr) (s : State) : (s.jump n a).store = s.store := store_advance n s

@[simp] theorem store_jumpIf (b : Bool) (n : Nat) (a : Addr) (s : State) : (s.jumpIf b n a).store = s.store := by
  cases b <;> simp [State.jumpIf]

theorem store_longInterrupt (v : VecState) (target : Addr) (saved : BitVec 16) (s : State) :
    (s.longInterrupt v target saved).store = s.store := store_push s.ctl.pc saved s

theorem store_call {n : Nat} {target : Addr} {saved : BitVec 16} (h : s.call n target saved = .ok t) :
    t.store = s.store := by
  unfold State.call at h
  split at h
  · cases h
  · cases hv : s.vec with
    | none =>
      simp only [hv] at h
      cases h
      simp
    | some v =>
      simp only [hv] at h
      cases h
      exact store_longInterrupt v target saved s

theorem store_callIf {b : Bool} {n : Nat} {target : Addr} {saved : BitVec 16}
    (h : s.callIf b n target saved = .ok t) : t.store = s.store := by
  cases b with
  | true => exact store_call h
  | false =>
    cases h
    exact store_advance n s

theorem store_endJump {r : Except Fault State} (hr : ∀ u, r = .ok u → u.store = s.store)
    (h : endJump r = .next t) : t.store = s.store := by
  cases r with
  | error f => cases h
  | ok u =>
    cases h
    exact hr _ rfl

theorem store_bitJump {want : Bool} {target : Addr} {b : Except Fault (Bool × State)}
    (hb : ∀ v u, b = .ok (v, u) → u.store = s.store) (h : bitJump want target b = .next t) :
    t.store = s.store := by
  rcases b with f | ⟨v, u⟩
  · cases h
  · cases h
    exact (store_jumpIf _ 2 target u).trans (hb v u rfl)

theorem store_bitCall {want : Bool} {target : Addr} {saved : BitVec 16} {b : Except Fault (Bool × State)}
    (hb : ∀ v u, b = .ok (v, u) → u.store = s.store) (h : bitCall want target saved b = .next t) :
    t.store = s.store := by
  rcases b with f | ⟨v, u⟩
  · cases h
  · exact store_endJump (fun w hw => (store_callIf hw).trans (hb v u rfl)) h

theorem store_bitAt {sp : DSpace} {a : Addr} {n : BitVec 5} {v : Bool}
    (h : (.ok (s.bitAt sp a n) : Except Fault _) = .ok (v, t)) : t.store = s.store := by
  injection h with h
  have ht : (s.loadData sp a).2 = t := congrArg Prod.snd h
  exact ht ▸ store_loadData sp a s

theorem store_bitInd {sp : DSpace} {j : Ind} {n : BitVec 5} {v : Bool} (h : s.bitInd sp j n = .ok (v, t)) :
    t.store = s.store := by
  unfold State.bitInd at h
  split at h
  · cases h
  next a u hu => exact (store_bitAt h).trans (store_resolveInd hu)

theorem store_bitOfReg {r : Reg} {n : BitVec 5} {v : Bool} (h : s.bitOfReg r n = .ok (v, t)) :
    t.store = s.store := by
  unfold State.bitOfReg at h
  split at h
  · cases h
  next w u hu =>
  cases h
  exact store_readBitReg hu

/-! ### Loops -/

theorem store_countInd {sp : DSpace} {j : Ind} {n : Addr} (h : s.countInd sp j = .ok (n, t)) :
    t.store = s.store := by
  unfold State.countInd at h
  split at h
  · cases h
  next a u hu =>
  cases h
  exact (store_loadData sp a u).trans (store_resolveInd hu)

theorem store_countAa {sp : DSpace} {aa : BitVec 6} {n : Addr} (h : s.countAa sp aa = .ok (n, t)) :
    t.store = s.store := by
  cases h
  exact store_loadData sp _ s

theorem store_countReg {r : Reg} {n : Addr} (h : s.countReg r = .ok (n, t)) : t.store = s.store := by
  unfold State.countReg at h
  split at h
  · cases h
  next v u hu =>
  cases h
  exact store_readReg hu

theorem store_beginRep {q : Except Fault (Addr × State)} (hq : ∀ n u, q = .ok (n, u) → u.store = s.store)
    (h : beginRep q = .next t) : t.store = s.store := by
  rcases q with f | ⟨n, u⟩
  · cases h
  · cases h
    exact (store_advance 1 _).trans (hq n u rfl)

theorem store_doStart (count last : Addr) (saved : BitVec 16) (s : State) :
    (s.doStart count last saved).store = s.store := by
  simp only [State.doStart, store_advance, store_setLf, store_push]
  exact store_push _ _ s

theorem store_beginDo {last : Addr} {saved : BitVec 16} {q : Except Fault (Addr × State)}
    (hq : ∀ n u, q = .ok (n, u) → u.store = s.store) (h : beginDo last saved q = .next t) : t.store = s.store := by
  rcases q with f | ⟨n, u⟩
  · cases h
  · cases h
    exact (store_doStart n last saved u).trans (hq n u rfl)

theorem store_leaveLoop (s : State) : s.leaveLoop.store = s.store :=
  ((store_pull _).trans (store_setLf _ _)).trans (store_pull s)

end Sys2Proof.Machine
end

section
/-! Where an instruction stores: the locations of `State.stored`, which are found from the state before it, are the only
ones it changes (20_memory.md R104, R107). -/

namespace Sys2Proof.Machine

/-! ### Changes at given locations -/

/-- From `s` to `t` no word of memory changes but at `locs`, nor BCR or IPR but where `locs` has their addresses. -/
def StoresOnly (locs : List (Space × Addr)) (s t : State) : Prop :=
  (∀ sp a, (sp, a) ∉ locs → t.peek sp a = s.peek sp a) ∧
  ((.x, bcrAddr) ∉ locs → t.bcr = s.bcr) ∧
  ((.x, iprAddr) ∉ locs → t.ipr = s.ipr)

namespace StoresOnly
variable {locs locs' : List (Space × Addr)} {s t u : State}

/-- What keeps `store` stores nowhere. -/
theorem of_store (h : t.store = s.store) : StoresOnly locs s t := by
  simp only [State.store, Prod.mk.injEq] at h
  obtain ⟨hmem, hbcr, hipr⟩ := h
  exact ⟨fun sp a _ => by simp only [State.peek, hmem], fun _ => hbcr, fun _ => hipr⟩

theorem mono (h : StoresOnly locs s t) (hl : locs ⊆ locs') : StoresOnly locs' s t :=
  ⟨fun sp a ha => h.1 sp a fun h' => ha (hl h'), fun hb => h.2.1 fun h' => hb (hl h'),
    fun hi => h.2.2 fun h' => hi (hl h')⟩

theorem trans (h : StoresOnly locs s t) (h' : StoresOnly locs t u) : StoresOnly locs s u :=
  ⟨fun sp a ha => (h'.1 sp a ha).trans (h.1 sp a ha), fun hb => (h'.2.1 hb).trans (h.2.1 hb),
    fun hi => (h'.2.2 hi).trans (h.2.2 hi)⟩

/-- Two operations, one after the other: the locations of both. -/
theorem seq (h : StoresOnly locs s t) (h' : StoresOnly locs' t u) : StoresOnly (locs ++ locs') s u :=
  (h.mono (List.subset_append_left _ _)).trans (h'.mono (List.subset_append_right _ _))

theorem poke (sp : Space) (a : Addr) (v : Word) (s : State) : StoresOnly [(sp, a)] s (s.poke sp a v) := by
  refine ⟨fun sp' a' h => ?_, fun _ => rfl, fun _ => rfl⟩
  rw [State.peek_poke, if_neg]
  rintro ⟨rfl, rfl⟩
  simp at h

theorem storeData (sp : DSpace) (a : Addr) (v : Word) (s : State) :
    StoresOnly [(sp.toSpace, a)] s (s.storeData sp a v) := by
  unfold State.storeData
  split
  · split
    · next h =>
      obtain ⟨rfl, rfl⟩ := h
      exact ⟨fun _ _ _ => rfl, fun h => absurd (List.mem_singleton.2 rfl) h, fun _ => rfl⟩
    · split
      · next h =>
        obtain ⟨rfl, rfl⟩ := h
        exact ⟨fun _ _ _ => rfl, fun _ => rfl, fun h => absurd (List.mem_singleton.2 rfl) h⟩
      · exact of_store (store_tell _ s)
  · exact poke _ a v s

end StoresOnly

/-! ### Addresses found before the operands are read -/

variable {s t u : State} {regs : List Reg} {bits : BitVec 16}

/-- The registers that the address arithmetic of an effective address uses are not among `regs`. -/
def avoids (regs : List Reg) : Ea → Prop
  | .ind j => .r j.reg ∉ regs ∧ .n j.reg ∉ regs ∧ .m j.reg ∉ regs
  | .abs _ => True

/-- SR and the stack play no part in address arithmetic. -/
theorem avoids_of_subset (h : regs ⊆ .c .sr :: stackRegs) (ea : Ea) : avoids regs ea := by
  cases ea with
  | abs a => trivial
  | ind j => exact ⟨fun hj => by simpa [stackRegs] using h hj, fun hj => by simpa [stackRegs] using h hj,
      fun hj => by simpa [stackRegs] using h hj⟩

theorem setWidth_addr_inj {v w : Addr} (h : v.setWidth 56 = w.setWidth 56) : v = w := by
  simpa using congrArg (BitVec.setWidth 16) h

/-- An operation that leaves the address registers of an operand alone leaves its location alone. -/
theorem eaStored_of_effect {ea : Ea} (h : Effect regs bits s t) (ha : avoids regs ea) (sp : Space) :
    t.eaStored sp ea = s.eaStored sp ea := by
  cases ea with
  | abs a => rfl
  | ind j =>
    obtain ⟨hr, hn, hm⟩ := ha
    have hr' : t.rReg j.reg = s.rReg j.reg := setWidth_addr_inj (h.raw _ hr)
    have hn' : t.nReg j.reg = s.nReg j.reg := setWidth_addr_inj (h.raw _ hn)
    have hm' : t.mReg j.reg = s.mReg j.reg := setWidth_addr_inj (h.raw _ hm)
    simp only [State.eaStored, State.resolve, State.resolveInd, State.stepped, hr', hn', hm']
    cases aguStep j.mode (s.rReg j.reg) (s.nReg j.reg) (s.mReg j.reg) with
    | error f => rfl
    | ok v => cases j.mode <;> rfl

theorem eaStored_of_resolve {ea : Ea} {a : Addr} (h : s.resolve ea = .ok (a, t)) (sp : Space) :
    s.eaStored sp ea = [(sp, a)] := by
  simp only [State.eaStored, h]

theorem eaStored_of_readReg {r : Reg} {v : Word} (h : s.readReg r = .ok (v, t)) (sp : Space) (ea : Ea) :
    t.eaStored sp ea = s.eaStored sp ea :=
  eaStored_of_effect (.readReg h) (avoids_of_subset (Effect.readSet_subset r) ea) sp

theorem eaStored_of_readLimited {d : Acc} {v : Word} (h : s.readLimited d = .ok (v, t)) (sp : Space) (ea : Ea) :
    t.eaStored sp ea = s.eaStored sp ea :=
  eaStored_of_effect (.readLimited h) (avoids_of_subset (by simp) ea) sp

theorem eaStored_of_readLong {l : LOp} {v : Word × Word} (h : s.readLong l = .ok (v, t)) (sp : Space) (ea : Ea) :
    t.eaStored sp ea = s.eaStored sp ea :=
  eaStored_of_effect (.readLong h 0) (avoids_of_subset (by cases l <;> simp [longSet]) ea) sp

theorem eaStored_loadData (sp : DSpace) (a : Addr) (s : State) (sp' : Space) (ea : Ea) :
    (s.loadData sp a).2.eaStored sp' ea = s.eaStored sp' ea :=
  eaStored_of_effect (.loadData sp a s) (avoids_of_subset (by simp) ea) sp'

/-- The two address registers of a double move are in different banks (20_memory.md R128). -/
theorem otherBank_ne (rx : BitVec 3) (ry : BitVec 2) : otherBank rx ry ≠ rx := by
  revert rx ry
  decide

/-- The X side's update of its address register leaves the Y side's address alone. -/
theorem eaStored_of_resolveInd {ix iy : Ind} {a : Addr} (h : s.resolveInd ix = .ok (a, t)) (hne : iy.reg ≠ ix.reg)
    (sp : Space) : t.eaStored sp (.ind iy) = s.eaStored sp (.ind iy) := by
  refine eaStored_of_effect (.resolveInd h) ?_ sp
  cases hm : ix.mode <;> simp [avoids, indSet, hm, hne]

/-! ### Pieces of a move -/

/-- Where one side of a memory move stores. -/
def sideStored (w : Dir) (locs : List (Space × Addr)) : List (Space × Addr) :=
  match w with
  | .toMem => locs
  | .toReg => []

/-- Where a transfer between a register and an effective address stores. -/
def State.xferStored (sp : Space) (x : Xfer) (s : State) : List (Space × Addr) :=
  match x with
  | .toMem ea => s.eaStored sp ea
  | .toReg _ => []

section Locations
variable (s : State) (x : Xfer) (w : Dir) (aa : BitVec 6) (r : Reg5)

theorem moveStored_xEa : s.moveStored (.xEa x r) = s.xferStored .x x := by cases x <;> rfl

theorem moveStored_yEa : s.moveStored (.yEa x r) = s.xferStored .y x := by cases x <;> rfl

theorem moveStored_xAa : s.moveStored (.xAa w aa r) = sideStored w [(.x, shortAddr aa)] := by cases w <;> rfl

theorem moveStored_yAa : s.moveStored (.yAa w aa r) = sideStored w [(.y, shortAddr aa)] := by cases w <;> rfl

theorem moveStored_xr (ee : XReg) (d : Acc) (f : YSel) : s.moveStored (.xr ee x d f) = s.xferStored .x x := by
  cases x <;> rfl

theorem moveStored_ry (d : Acc) (e : XSel) (ff : YReg) : s.moveStored (.ry d e ff x) = s.xferStored .y x := by
  cases x <;> rfl

theorem moveStored_xy (wx : Dir) (ee : XReg) (mx : XYMode) (rx : BitVec 3) (wy : Dir) (ff : YReg) (my : XYMode)
    (ry : BitVec 2) :
    s.moveStored (.xy wx ee mx rx wy ff my ry) =
      sideStored wx (s.eaStored .x (.ind ⟨mx.toAguMode, rx⟩)) ++
        sideStored wy (s.eaStored .y (.ind ⟨my.toAguMode, otherBank rx ry⟩)) := by
  cases wx <;> cases wy <;> rfl

end Locations

namespace StoresOnly

theorem storeEa {sp : DSpace} {ea : Ea} {v : Word} (h : s.storeEa sp ea v = .ok t) :
    StoresOnly (s.eaStored sp.toSpace ea) s t := by
  simp only [State.storeEa] at h
  split at h
  · cases h
  next a u hu =>
  cases h
  rw [eaStored_of_resolve hu]
  exact (of_store (store_resolve hu)).trans (storeData sp a v u)

theorem storeSide (sp : DSpace) (w : Dir) (r : Reg) (a : Addr) (v : Word) (s : State) :
    StoresOnly (sideStored w [(sp.toSpace, a)]) s (s.storeSide sp w r a v) := by
  cases w with
  | toReg => exact of_store (store_writeReg r v s)
  | toMem => exact storeData sp a v s

theorem moveAt {sp : DSpace} {w : Dir} {a : Addr} {r : Reg} (h : s.moveAt sp w a r = .ok t) :
    StoresOnly (sideStored w [(sp.toSpace, a)]) s t := by
  simp only [State.moveAt] at h
  split at h
  · cases h
  next v u hu =>
  cases h
  exact (of_store (store_fetchSide hu)).trans (storeSide sp w r a v u)

theorem moveEa {sp : DSpace} {x : Xfer} {r : Reg} (h : s.moveEa sp x r = .ok t) :
    StoresOnly (s.xferStored sp.toSpace x) s t := by
  cases x with
  | toReg src =>
    simp only [State.moveEa] at h
    split at h
    · cases h
    next v u hu =>
    cases h
    exact of_store ((store_writeReg r v u).trans (store_loadEa hu))
  | toMem ea =>
    simp only [State.moveEa] at h
    split at h
    · cases h
    next v u hu =>
    rw [State.xferStored, ← eaStored_of_readReg hu]
    exact (of_store (store_readReg hu)).trans (storeEa h)

theorem storeLong (a : Addr) (v : Word × Word) (s : State) :
    StoresOnly [(.x, a), (.y, a)] s (s.storeLong a v) :=
  (storeData .x a v.1 s).seq (storeData .y a v.2 _)

/-- A register moved beside a memory transfer (class I). -/
theorem moveClassOne {sp : DSpace} {x : Xfer} {r : Reg} {d : Acc} {f : DReg} {v : Word} {w : State}
    (hd : s.readLimited d = .ok (v, u)) (hx : u.moveEa sp x r = .ok w) :
    StoresOnly (s.xferStored sp.toSpace x) s (w.writeD f v) := by
  have hloc : u.xferStored sp.toSpace x = s.xferStored sp.toSpace x := by
    cases x with
    | toReg src => rfl
    | toMem ea => exact eaStored_of_readLimited hd _ ea
  exact hloc ▸ ((of_store (store_readLimited hd)).trans (moveEa hx)).trans (of_store (store_writeD f v w))

/-- An accumulator stored and written again (class II). -/
theorem moveClassTwo {sp : DSpace} {ea : Ea} {d : Acc} {v x : Word} {w : State}
    (hd : s.readLimited d = .ok (v, u)) (hw : u.storeEa sp ea v = .ok w) :
    StoresOnly (s.eaStored sp.toSpace ea) s (w.writeD d.toDReg x) := by
  rw [← eaStored_of_readLimited hd]
  exact ((of_store (store_readLimited hd)).trans (storeEa hw)).trans (of_store (store_writeD _ x w))

/-- A double move: both addresses are found before anything is stored. -/
theorem moveXY {wx wy : Dir} {ee : XReg} {ff : YReg} {ix iy : Ind} (hne : iy.reg ≠ ix.reg)
    (h : s.moveXY wx ee ix wy ff iy = .ok t) :
    StoresOnly (sideStored wx (s.eaStored .x (.ind ix)) ++ sideStored wy (s.eaStored .y (.ind iy))) s t := by
  unfold State.moveXY at h
  split at h
  · cases h
  next ax s1 hx =>
  split at h
  · cases h
  next ay s2 hy =>
  split at h
  · cases h
  next vx s3 hvx =>
  split at h
  · cases h
  next vy s4 hvy =>
  cases h
  rw [eaStored_of_resolve (ea := .ind ix) hx, ← eaStored_of_resolveInd hx hne, eaStored_of_resolve (ea := .ind iy) hy]
  have hread : s4.store = s.store := by
    rw [store_fetchSide hvy, store_fetchSide hvx, store_resolveInd hy, store_resolveInd hx]
  exact (of_store hread).trans ((storeSide .x wx (.d ee.toDReg) ax vx s4).seq (storeSide .y wy (.d ff.toDReg) ay vy _))

/-! ### Move fields (45_parallel_moves.md R368 to R379) -/

theorem runMove {mv : ParMove} (h : s.runMove mv = .ok t) : StoresOnly (s.moveStored mv) s t := by
  cases mv with
  | none =>
    cases h
    exact of_store rfl
  | imm dst i =>
    cases h
    exact of_store (store_writeReg dst.toReg _ s)
  | reg src dst =>
    simp only [State.runMove] at h
    split at h
    · cases h
    next v u hv =>
    cases h
    exact of_store ((store_writeReg dst.toReg v u).trans (store_readReg hv))
  | upd mm r =>
    simp only [State.runMove] at h
    split at h
    · cases h
    cases h
    exact of_store (store_setR r _ s)
  | xEa x r =>
    rw [moveStored_xEa]
    exact moveEa h
  | yEa x r =>
    rw [moveStored_yEa]
    exact moveEa h
  | xAa w aa r =>
    rw [moveStored_xAa]
    exact moveAt h
  | yAa w aa r =>
    rw [moveStored_yAa]
    exact moveAt h
  | lEa w ea l =>
    cases w with
    | toReg =>
      simp only [State.runMove] at h
      split at h
      · cases h
      next a u hu =>
      cases h
      exact of_store ((store_loadLong a l u).trans (store_resolve hu))
    | toMem =>
      simp only [State.runMove] at h
      split at h
      · cases h
      next v u hv =>
      split at h
      · cases h
      next a w hw =>
      cases h
      rw [State.moveStored, ← eaStored_of_readLong hv, ← eaStored_of_readLong hv, eaStored_of_resolve hw,
        eaStored_of_resolve hw]
      exact (of_store ((store_resolve hw).trans (store_readLong hv))).trans (storeLong a v w)
  | lAa w aa l =>
    cases w with
    | toReg =>
      cases h
      exact of_store (store_loadLong _ l s)
    | toMem =>
      simp only [State.runMove] at h
      split at h
      · cases h
      next v u hv =>
      cases h
      exact (of_store (store_readLong hv)).trans (storeLong _ v u)
  | xr ee x d f =>
    simp only [State.runMove] at h
    split at h
    · cases h
    next v u hv =>
    split at h
    · cases h
    next w hw =>
    cases h
    rw [moveStored_xr]
    exact moveClassOne hv hw
  | ry d e ff x =>
    simp only [State.runMove] at h
    split at h
    · cases h
    next v u hv =>
    split at h
    · cases h
    next w hw =>
    cases h
    rw [moveStored_ry]
    exact moveClassOne hv hw
  | xr2 d ea | ry2 d ea =>
    simp only [State.runMove] at h
    split at h
    · cases h
    next v u hv =>
    split at h
    · cases h
    next w hw =>
    cases h
    exact moveClassTwo hv hw
  | xy wx ee mx rx wy ff my ry =>
    rw [moveStored_xy]
    exact moveXY (otherBank_ne rx ry) h

end StoresOnly
end Sys2Proof.Machine
end

section
/-! Every instruction stores only where `State.stored` says. -/

namespace Sys2Proof.Machine
namespace StoresOnly
variable {locs : List (Space × Addr)} {s t : State}

/-! ### The ends of an instruction -/

theorem endMove {n : Nat} {r : Except Fault State} (hr : ∀ u, r = .ok u → StoresOnly locs s u)
    (h : endMove n r = .next t) : StoresOnly locs s t := by
  cases r with
  | error f => cases h
  | ok u =>
    cases h
    exact (hr u rfl).trans (of_store (store_advance n u))

theorem endBit {n : Nat} {r : Except Fault State} (hr : ∀ u, r = .ok u → StoresOnly locs s u)
    (h : endBit n r = .next t) : StoresOnly locs s t :=
  endMove hr (by cases r <;> exact h)

/-- A data-ALU operation with a parallel move stores where its move does. -/
theorem parallel {alu : State → Except Fault AluOut} {mv : ParMove} (h : parallel alu mv s = .next t) :
    StoresOnly (s.moveStored mv) s t := by
  obtain ⟨o, u, -, hu, rfl⟩ := (parallel_next alu mv s t).1 h
  exact (runMove hu).trans (of_store ((store_advance _ _).trans (store_putAlu o u)))

theorem moveOnly {mv : ParMove} (h : moveOnly mv s = .next t) : StoresOnly (s.moveStored mv) s t := by
  unfold Machine.moveOnly at h
  split at h
  · cases h
  next u hu =>
  cases h
  exact (runMove hu).trans (of_store (store_advance _ u))

theorem aluOnly {alu : State → Except Fault AluOut} (h : aluOnly alu s = .next t) : StoresOnly locs s t := by
  unfold Machine.aluOnly at h
  split at h
  · cases h
  next o ho =>
  cases h
  exact of_store ((store_advance 1 _).trans (store_putAlu o s))

/-! ### Jumps with an effective address -/

theorem jumpEa {ea : Ea} (h : execJmpEa ea s = .next t) : StoresOnly locs s t := by
  refine of_store (store_endJump (fun u hu => ?_) h)
  split at hu
  · cases hu
  next a w hw =>
  cases hu
  exact (store_jump _ a w).trans (store_resolve hw)

theorem jumpIfEa {k : Cond} {ea : Ea} (h : execJccEa k ea s = .next t) : StoresOnly locs s t := by
  refine of_store (store_endJump (fun u hu => ?_) h)
  split at hu
  · cases hu
  next a w hw =>
  cases hu
  exact (store_jumpIf _ _ a w).trans (store_resolve hw)

theorem callEa {ea : Ea} (h : execJsrEa ea s = .next t) : StoresOnly locs s t := by
  refine of_store (store_endJump (fun u hu => ?_) h)
  split at hu
  · cases hu
  next a w hw => exact (store_call hu).trans (store_resolve hw)

theorem callIfEa {k : Cond} {ea : Ea} (h : execJsccEa k ea s = .next t) : StoresOnly locs s t := by
  refine of_store (store_endJump (fun u hu => ?_) h)
  split at hu
  · cases hu
  next a w hw => exact (store_callIf hu).trans (store_resolve hw)

/-! ### Bit instructions -/

theorem testEa {sp : DSpace} {ea : Ea} {n : BitVec 5} (h : execBtstEa sp ea n s = .next t) : StoresOnly locs s t := by
  refine endBit (fun u hu => ?_) h
  split at hu
  · cases hu
  next a w hw =>
  cases hu
  exact of_store ((store_testMem sp a n w).trans (store_resolve hw))

theorem testReg {r : Reg} {n : BitVec 5} (h : execBtstReg r n s = .next t) : StoresOnly locs s t := by
  refine endBit (fun u hu => ?_) h
  split at hu
  · cases hu
  next v w hw =>
  cases hu
  exact of_store ((store_setC _ w).trans (store_readBitReg hw))

theorem modifyMem (op : BitOp) (sp : DSpace) (a : Addr) (n : BitVec 5) (s : State) :
    StoresOnly [(sp.toSpace, a)] s (s.modifyMem op sp a n) :=
  ((of_store (store_loadData sp a s)).trans (storeData sp a _ _)).trans (of_store (store_setC _ _))

theorem modifyEa {op : BitOp} {sp : DSpace} {ea : Ea} {n : BitVec 5} (h : modifyEa op sp ea n s = .next t) :
    StoresOnly (s.eaStored sp.toSpace ea) s t := by
  refine endBit (fun u hu => ?_) h
  split at hu
  · cases hu
  next a w hw =>
  cases hu
  rw [eaStored_of_resolve hw]
  exact (of_store (store_resolve hw)).trans (modifyMem op sp a n w)

theorem modifyReg {op : BitOp} {r : Reg} {n : BitVec 5} (h : s.modifyReg op r n = .ok t) : StoresOnly locs s t := by
  unfold State.modifyReg at h
  split at h
  · cases h
  next v u hu =>
  injection h with h
  rw [← h]
  refine (of_store (store_readBitReg hu)).trans (of_store ?_)
  split
  · rfl
  · exact store_writeReg r _ _

/-! ### Class N moves -/

theorem writeP {n : Nat} {a : Addr} {v : Word} (h : s.writeP n a v = .ok t) : StoresOnly [(.p, a)] s t := by
  unfold State.writeP at h
  split at h
  · cases h
  · cases h
    exact poke .p a v s

/-- A load from P memory stores nothing. -/
theorem moveP_load {n : Nat} {r : Reg} {ea : Ea} (h : s.moveP n .toReg r ea = .ok t) : StoresOnly locs s t := by
  simp only [State.moveP] at h
  split at h
  · cases h
  next a u hu =>
  cases h
  exact of_store ((store_writeReg r _ u).trans (store_resolve hu))

theorem moveP_store {n : Nat} {r : Reg} {ea : Ea} (h : s.moveP n .toMem r ea = .ok t) :
    StoresOnly (s.eaStored .p ea) s t := by
  simp only [State.moveP] at h
  split at h
  · cases h
  next v u hu =>
  split at h
  · cases h
  next a w hw =>
  rw [← eaStored_of_readReg hu, eaStored_of_resolve hw]
  exact (of_store ((store_resolve hw).trans (store_readReg hu))).trans (writeP h)

theorem movepEa {ps es : DSpace} {pp : BitVec 6} {x : Xfer} (h : execMovepEa ps pp es x s = .next t) :
    StoresOnly (s.stored (.movepEa ps pp es x)) s t := by
  refine endMove (fun u hu => ?_) h
  cases x with
  | toReg src =>
    simp only at hu
    split at hu
    · cases hu
    next v w hw =>
    cases hu
    exact (of_store (store_loadEa hw)).trans (storeData ps (ioAddr pp) v w)
  | toMem ea =>
    have hstore := storeEa hu
    rw [eaStored_loadData] at hstore
    exact (of_store (store_loadData ps _ s)).trans hstore

theorem movepP {ps : DSpace} {pp : BitVec 6} {w : Dir} {ea : Ea} (h : execMovepP ps pp w ea s = .next t) :
    StoresOnly (s.stored (.movepP ps pp w ea)) s t := by
  refine endMove (fun u hu => ?_) h
  cases w with
  | toReg =>
    simp only at hu
    split at hu
    · cases hu
    next a w hw =>
    cases hu
    exact (of_store (store_resolve hw)).trans (storeData ps (ioAddr pp) _ w)
  | toMem =>
    simp only at hu
    split at hu
    · cases hu
    next a w hw =>
    have hloc : s.eaStored .p ea = [(.p, a)] :=
      (eaStored_loadData ps (ioAddr pp) s .p ea).symm.trans (eaStored_of_resolve hw .p)
    have hstore := (of_store ((store_resolve hw).trans (store_loadData ps _ s))).trans (writeP hu)
    rw [← hloc] at hstore
    exact hstore

theorem movepReg {ps : DSpace} {pp : BitVec 6} {w : Dir} {r : Reg} (h : execMovepReg ps pp w r s = .next t) :
    StoresOnly (s.stored (.movepReg ps pp w r)) s t := by
  refine endMove (fun u hu => ?_) h
  cases w with
  | toReg =>
    simp only at hu
    split at hu
    · cases hu
    next v w hw =>
    cases hu
    exact (of_store (store_readReg hw)).trans (storeData ps (ioAddr pp) v w)
  | toMem =>
    cases hu
    exact of_store ((store_writeReg r _ _).trans (store_loadData ps _ s))

theorem movecReg {w : Dir} {r : Reg} {c : CReg} (h : execMovecReg w r c s = .next t) : StoresOnly locs s t := by
  refine endMove (fun u hu => ?_) h
  split at hu
  · cases hu
  next v u hv =>
  cases hu
  exact of_store ((store_writeReg _ v u).trans (store_readReg hv))

theorem lua {mm : UMode} {k : BitVec 3} {dst : RNReg} (h : execLua mm k dst s = .next t) : StoresOnly locs s t := by
  refine endMove (fun u hu => ?_) h
  split at hu
  · cases hu
  next v hv =>
  cases dst with
  | r j | n j =>
    cases hu
    exact of_store rfl

/-! ### NORM, Tcc and the control instructions -/

theorem norm {k : BitVec 3} {d : Acc} (h : execNorm k d s = .next t) : StoresOnly locs s t := by
  unfold execNorm at h
  split at h
  · cases h
  next m hm =>
  simp only at h
  refine of_store ?_
  split at h
  · cases h
    simp
  · split at h
    · cases h
      simp
    · cases h
      simp

theorem tcc {k : Cond} {src : TSrc} {d : Acc} (h : execTcc k src d s = .next t) : StoresOnly locs s t := by
  cases h
  refine of_store ((store_advance 1 _).trans ?_)
  split <;> rfl

theorem tccR {k : Cond} {src : TSrc} {d : Acc} {s2 d2 : BitVec 3} (h : execTccR k src d s2 d2 s = .next t) :
    StoresOnly locs s t := by
  cases h
  refine of_store ((store_advance 1 _).trans ?_)
  split <;> rfl

theorem modifyCtl8 (d : ImmDest) (f : BitVec 8 → BitVec 8) (s : State) :
    StoresOnly locs s ((s.modifyCtl8 d f).advance 1) := by
  refine of_store ((store_advance 1 _).trans ?_)
  cases d <;> rfl

theorem enterDebug (s : State) : StoresOnly locs s (s.enterDebug.advance 1) := by
  refine of_store ((store_advance 1 _).trans ?_)
  unfold State.enterDebug
  split <;> rfl

end StoresOnly

/-! ### Every instruction -/

variable {i : Instr} {s t : State}

/-- An instruction other than RESET, which clears IPR, changes memory, BCR and IPR only where it stores. -/
theorem exec_storesOnly (hi : i ≠ .reset) (h : exec i s = .next t) : StoresOnly (s.stored i) s t := by
  cases i with
  | jsccShort k a => exact .of_store (store_endJump (fun _ => store_callIf) h)
  | jsrShort a => exact .of_store (store_endJump (fun _ => store_call) h)
  | jccShort k a =>
    cases h
    exact .of_store (store_jumpIf _ _ _ s)
  | jmpShort a =>
    cases h
    exact .of_store (store_jump _ _ s)
  | jsccEa k ea => exact .callIfEa h
  | jsrEa ea => exact .callEa h
  | jccEa k ea => exact .jumpIfEa h
  | jmpEa ea => exact .jumpEa h
  | jssetPp sp pp n a | jssetAa sp aa n a | jsclrPp sp pp n a | jsclrAa sp aa n a =>
    exact .of_store (store_bitCall (fun _ _ => store_bitAt) h)
  | jssetEa sp j n a | jsclrEa sp j n a => exact .of_store (store_bitCall (fun _ _ => store_bitInd) h)
  | jssetReg r n a | jsclrReg r n a => exact .of_store (store_bitCall (fun _ _ => store_bitOfReg) h)
  | jsetPp sp pp n a | jsetAa sp aa n a | jclrPp sp pp n a | jclrAa sp aa n a =>
    exact .of_store (store_bitJump (fun _ _ => store_bitAt) h)
  | jsetEa sp j n a | jclrEa sp j n a => exact .of_store (store_bitJump (fun _ _ => store_bitInd) h)
  | jsetReg r n a | jclrReg r n a => exact .of_store (store_bitJump (fun _ _ => store_bitOfReg) h)
  | btstPp sp pp n | btstAa sp aa n =>
    cases h
    exact .of_store ((store_advance 1 _).trans (store_testMem sp _ n s))
  | bchgPp sp pp n | bchgAa sp aa n | bsetPp sp pp n | bsetAa sp aa n | bclrPp sp pp n | bclrAa sp aa n =>
    cases h
    exact (StoresOnly.modifyMem _ sp _ n s).trans (.of_store (store_advance 1 _))
  | btstEa sp ea n => exact .testEa h
  | bchgEa sp ea n | bsetEa sp ea n | bclrEa sp ea n => exact .modifyEa h
  | btstReg r n => exact .testReg h
  | bchgReg r n | bsetReg r n | bclrReg r n => exact .endBit (fun _ => .modifyReg) h
  | movepEa ps pp es x => exact .movepEa h
  | movepP ps pp w ea => exact .movepP h
  | movepReg ps pp w r => exact .movepReg h
  | movemEa w ea r =>
    cases w with
    | toReg => exact .endMove (fun _ => .moveP_load) h
    | toMem => exact .endMove (fun _ => .moveP_store) h
  | movemAa w aa r =>
    cases w with
    | toReg => exact .endMove (fun _ => .moveP_load (n := 1) (ea := .abs (shortAddr aa))) h
    | toMem => exact .endMove (fun _ => .moveP_store (ea := .abs (shortAddr aa))) h
  | repImm count =>
    cases h
    exact .of_store (store_advance 1 _)
  | repReg r => exact .of_store (store_beginRep (fun _ _ => store_countReg) h)
  | repEa sp j => exact .of_store (store_beginRep (fun _ _ => store_countInd) h)
  | repAa sp aa => exact .of_store (store_beginRep (fun _ _ => store_countAa) h)
  | doImm count last =>
    cases h
    exact .of_store (store_doStart _ last _ s)
  | doReg r last => exact .of_store (store_beginDo (fun _ _ => store_countReg) h)
  | doEa sp j last => exact .of_store (store_beginDo (fun _ _ => store_countInd) h)
  | doAa sp aa last => exact .of_store (store_beginDo (fun _ _ => store_countAa) h)
  | movecEa sp x c =>
    have hx : StoresOnly (s.xferStored sp.toSpace x) s t := .endMove (fun _ => .moveEa) h
    cases x <;> exact hx
  | movecAa sp w aa c =>
    have hw : StoresOnly (sideStored w [(sp.toSpace, shortAddr aa)]) s t := .endMove (fun _ => .moveAt) h
    cases w <;> exact hw
  | movecReg w r c => exact .movecReg h
  | movecImm j c =>
    cases h
    exact .of_store ((store_advance 1 _).trans (store_writeReg c.toReg _ s))
  | lua mm r dst => exact .lua h
  | tcc k src d => exact .tcc h
  | tccR k src d s2 d2 => exact .tccR h
  | norm r d => exact .norm h
  | divStep src d | dec d | inc d => exact .aluOnly h
  | macImm neg qq d sh | macrImm neg qq d sh | mpyImm neg qq d sh | mpyrImm neg qq d sh => cases h
  | debugcc k =>
    cases h
    split
    · exact .enterDebug s
    · exact .of_store (store_advance 1 s)
  | debug =>
    cases h
    exact .enterDebug s
  | ori j d | andi j d =>
    cases h
    exact .modifyCtl8 d _ s
  | enddo =>
    cases h
    exact .of_store ((store_advance 1 _).trans (store_leaveLoop s))
  | stop | wait | swi | illegal | nop =>
    cases h
    exact .of_store (store_advance 1 _)
  | reset => exact absurd rfl hi
  | rts | rti =>
    cases h
    exact .of_store (store_pull s)
  | tfrAcc d mv | addr d mv | tst d mv | cmpAcc d mv | subr d mv | cmpmAcc d mv | addAcc d mv | rnd d mv
  | addl d mv | clr d mv | subAcc d mv | subl d mv | notAcc d mv | addLong l d mv | adc l d mv | subLong l d mv
  | sbc l d mv | asr d mv | lsr d mv | absAcc d mv | asl d mv | lsl d mv | neg d mv
  | addWord w d mv | tfrWord w d mv | orWord w d mv | eorWord w d mv | subWord w d mv | cmpWord w d mv
  | andWord w d mv | cmpmWord w d mv | mpy neg q d mv | mpyr neg q d mv | mac neg q d mv | macr neg q d mv =>
    exact .parallel h
  | ror d mv | rol d mv => exact .parallel (alu := aluRotate d _) h
  | moveNone => exact .moveOnly (mv := .none) h
  | moveImm dst j => exact .moveOnly (mv := .imm dst j) h
  | moveReg src dst => exact .moveOnly (mv := .reg src dst) h
  | moveUpd mm r => exact .moveOnly (mv := .upd mm r) h
  | moveXEa x r => exact .moveOnly (mv := .xEa x r) h
  | moveXAa w aa r => exact .moveOnly (mv := .xAa w aa r) h
  | moveYEa x r => exact .moveOnly (mv := .yEa x r) h
  | moveYAa w aa r => exact .moveOnly (mv := .yAa w aa r) h
  | moveLEa w ea l => exact .moveOnly (mv := .lEa w ea l) h
  | moveLAa w aa l => exact .moveOnly (mv := .lAa w aa l) h
  | moveXR ee x d f => exact .moveOnly (mv := .xr ee x d f) h
  | moveRY d e ff x => exact .moveOnly (mv := .ry d e ff x) h
  | moveXR2 d ea => exact .moveOnly (mv := .xr2 d ea) h
  | moveRY2 d ea => exact .moveOnly (mv := .ry2 d ea) h
  | moveXY wx ee mx rx wy ff my ry => exact .moveOnly (mv := .xy wx ee mx rx wy ff my ry) h

/-- RESET clears IPR and leaves memory and BCR alone (41_program_control.md R250). -/
theorem exec_reset_store (h : exec .reset s = .next t) : t.store = (s.mem, s.bcr, 0) := by
  have ht : t = ({ s.clearMaskable.tell .peripheralReset with ipr := 0 } : State).advance 1 := by
    cases h
    rfl
  rw [ht, store_advance]
  simp only [State.store, State.clearMaskable, State.tell]

/-- Settles O11: RESET apart, by `exec_storesOnly`. -/
theorem memoryFrame : Obligations.MemoryFrame := by
  intro i s t h
  by_cases hi : i = .reset
  · subst hi
    have hstore := exec_reset_store h
    simp only [State.store, Prod.mk.injEq] at hstore
    obtain ⟨hmem, hbcr, -⟩ := hstore
    exact ⟨fun sp a _ => by simp only [State.peek, hmem], fun _ => hbcr, fun _ hne => absurd rfl hne⟩
  · obtain ⟨hpeek, hbcr, hipr⟩ := exec_storesOnly hi h
    exact ⟨hpeek, hbcr, fun ha _ => hipr ha⟩

end Sys2Proof.Machine
end

section
/-! Where the machine stands in the fetch stream: PC and the place in a vector. The operations between an instruction's
fetch and its end keep it, and the end moves it past the instruction's words (30_encoding.md R153). -/

namespace Sys2Proof.Machine

/-- PC and the vector in progress (10_state.md R43, 60_exceptions.md R508). -/
def State.place (s : State) : Addr × Option VecState := (s.ctl.pc, s.vec)

variable {s t u : State}

/-! ### Registers, flags and messages -/

@[simp] theorem place_setSr (v : BitVec 16) (s : State) : (s.setSr v).place = s.place := rfl
@[simp] theorem place_setLf (b : Bool) (s : State) : (s.setLf b).place = s.place := rfl
@[simp] theorem place_setAcc (d : Acc) (v : AccVal) (s : State) : (s.setAcc d v).place = s.place := rfl
@[simp] theorem place_writeD (x : DReg) (w : Word) (s : State) : (s.writeD x w).place = s.place := rfl
@[simp] theorem place_setR (k : BitVec 3) (v : Addr) (s : State) : (s.setR k v).place = s.place := rfl
@[simp] theorem place_setN (k : BitVec 3) (v : Addr) (s : State) : (s.setN k v).place = s.place := rfl
@[simp] theorem place_pend (q : Source) (s : State) : (s.pend q).place = s.place := rfl
@[simp] theorem place_setC (b : Bool) (s : State) : (s.setC b).place = s.place := rfl
@[simp] theorem place_limited (m : ScaleMode) (v : AccVal) (s : State) : (s.limited m v).place = s.place := rfl
@[simp] theorem place_limitedL (m : ScaleMode) (v : AccVal) (s : State) : (s.limitedL m v).place = s.place := rfl

@[simp] theorem place_putAlu (o : AluOut) (s : State) : (s.putAlu o).place = s.place := by
  obtain ⟨_ | ⟨d, v⟩, _ | f⟩ := o <;> rfl

@[simp] theorem place_modifyCtl8 (d : ImmDest) (f : BitVec 8 → BitVec 8) (s : State) :
    (s.modifyCtl8 d f).place = s.place := by cases d <;> rfl

/-- RESET (41_program_control.md R250, R251). -/
theorem place_resetDevices (s : State) :
    ({ s.clearMaskable.tell .peripheralReset with ipr := 0 } : State).place = s.place := by
  simp only [State.place, State.clearMaskable, State.tell]

@[simp] theorem place_enterDebug (s : State) : s.enterDebug.place = s.place := by
  unfold State.enterDebug
  split <;> rfl

/-! ### The stack and memory -/

@[simp] theorem place_incSp (s : State) : s.incSp.place = s.place := (congrArg State.place incSp_state).trans rfl
@[simp] theorem place_decSp (s : State) : s.decSp.place = s.place := (congrArg State.place (decSp_state s)).trans rfl
@[simp] theorem place_ssTop (s : State) : s.ssTop.2.place = s.place := (congrArg State.place (ssTop_state s)).trans rfl
@[simp] theorem place_setSsTop (v : Addr × Addr) (s : State) : (s.setSsTop v).place = s.place :=
  (congrArg State.place (setSsTop_state v s)).trans rfl
@[simp] theorem place_push (hi lo : Addr) (s : State) : (s.push hi lo).place = s.place := by simp [State.push]
@[simp] theorem place_pull (s : State) : s.pull.2.place = s.place := by simp [State.pull]
@[simp] theorem place_loadData (sp : DSpace) (a : Addr) (s : State) : (s.loadData sp a).2.place = s.place :=
  (congrArg State.place (loadData_state sp a s)).trans rfl
@[simp] theorem place_storeData (sp : DSpace) (a : Addr) (v : Word) (s : State) :
    (s.storeData sp a v).place = s.place := (congrArg State.place (storeData_state sp a v s)).trans rfl
@[simp] theorem place_testMem (sp : DSpace) (a : Addr) (n : BitVec 5) (s : State) :
    (s.testMem sp a n).place = s.place := by simp [State.testMem]
@[simp] theorem place_modifyMem (op : BitOp) (sp : DSpace) (a : Addr) (n : BitVec 5) (s : State) :
    (s.modifyMem op sp a n).place = s.place := by simp [State.modifyMem]
@[simp] theorem place_storeLong (a : Addr) (v : Word × Word) (s : State) : (s.storeLong a v).place = s.place := by
  simp [State.storeLong]

@[simp] theorem place_loadLong (a : Addr) (l : LOp) (s : State) : (s.loadLong a l).place = s.place :=
  (place_loadData .y a _).trans (place_loadData .x a s)

@[simp] theorem place_leaveLoop (s : State) : s.leaveLoop.place = s.place :=
  ((place_pull _).trans (place_setLf _ _)).trans (place_pull s)

@[simp] theorem place_writeReg (r : Reg) (w : Word) (s : State) : (s.writeReg r w).place = s.place := by
  cases r with
  | d x => rfl
  | r k | n k | m k => rfl
  | c x =>
    cases x with
    | ssh => simp [State.writeReg, State.writeCtl, State.writeSsh]
    | ssl => simp [State.writeReg, State.writeCtl, State.writeSsl]
    | sr | omr | sp | la | lc => rfl

@[simp] theorem place_storeSide (sp : DSpace) (w : Dir) (r : Reg) (a : Addr) (v : Word) (s : State) :
    (s.storeSide sp w r a v).place = s.place := by cases w <;> simp [State.storeSide]

/-! ### Registers and addresses as operands -/

theorem place_readLimited {d : Acc} {v : Word} (h : s.readLimited d = .ok (v, t)) : t.place = s.place := by
  unfold State.readLimited at h
  split at h <;> cases h
  exact place_limited _ _ s

theorem place_readBitAcc {d : Acc} {v : Word} (h : s.readBitAcc d = .ok (v, t)) : t.place = s.place := by
  unfold State.readBitAcc at h
  split at h <;> cases h
  exact place_limitedL _ _ s

theorem place_readCtl (x : CtlReg) (s : State) : (s.readCtl x).2.place = s.place := by
  cases x with
  | ssh => exact place_pull s
  | ssl => exact place_ssTop s
  | sr | omr | sp | la | lc => rfl

theorem place_readReg {r : Reg} {v : Word} (h : s.readReg r = .ok (v, t)) : t.place = s.place := by
  cases r with
  | d x =>
    cases x
    case a | b => exact place_readLimited h
    all_goals
      cases h
      rfl
  | r k | n k | m k =>
    cases h
    rfl
  | c x =>
    injection h with h
    have hread : (s.readCtl x).2 = t := congrArg Prod.snd h
    exact hread ▸ place_readCtl x s

theorem place_readBitReg {r : Reg} {v : Word} (h : s.readBitReg r = .ok (v, t)) : t.place = s.place := by
  unfold State.readBitReg at h
  split at h
  case h_3 | h_4 => exact place_readBitAcc h
  case h_5 => exact place_readReg h
  all_goals
    cases h
    rfl

theorem place_readLong {l : LOp} {v : Word × Word} (h : s.readLong l = .ok (v, t)) : t.place = s.place := by
  have hacc {d : Acc} (h : State.readLong.readAcc s d = .ok (v, t)) : t.place = s.place := by
    unfold State.readLong.readAcc at h
    split at h <;> cases h
    exact place_limited _ _ s
  have hboth {d e : Acc} (h : State.readLong.readBoth s d e = .ok (v, t)) : t.place = s.place := by
    unfold State.readLong.readBoth at h
    split at h
    · cases h
    next x u hx =>
    split at h
    · cases h
    next y w hy =>
    cases h
    exact (place_readLimited hy).trans (place_readLimited hx)
  cases l
  case a | b => exact hacc h
  case ab | ba => exact hboth h
  all_goals
    cases h
    rfl

theorem place_resolve {ea : Ea} {a : Addr} (h : s.resolve ea = .ok (a, t)) : t.place = s.place :=
  (congrArg State.place (resolve_state h)).trans rfl

theorem place_resolveInd {j : Ind} {a : Addr} (h : s.resolveInd j = .ok (a, t)) : t.place = s.place :=
  place_resolve (ea := .ind j) h

theorem place_load {sp : DSpace} {a : Addr} {v : Word}
    (h : (.ok (s.loadData sp a) : Except Fault (Word × State)) = .ok (v, t)) : t.place = s.place := by
  injection h with h
  have hload : (s.loadData sp a).2 = t := congrArg Prod.snd h
  exact hload ▸ place_loadData sp a s

theorem place_loadEa {sp : DSpace} {src : EaImm} {v : Word} (h : s.loadEa sp src = .ok (v, t)) :
    t.place = s.place := by
  cases src with
  | imm w =>
    cases h
    rfl
  | mem ea =>
    simp only [State.loadEa] at h
    split at h
    · cases h
    next hu => exact (place_load h).trans (place_resolve hu)

theorem place_storeEa {sp : DSpace} {ea : Ea} {v : Word} (h : s.storeEa sp ea v = .ok t) : t.place = s.place := by
  unfold State.storeEa at h
  split at h <;> cases h
  next hu => exact (place_storeData sp _ v _).trans (place_resolve hu)

theorem place_fetchSide {sp : DSpace} {w : Dir} {r : Reg} {a : Addr} {v : Word}
    (h : s.fetchSide sp w r a = .ok (v, t)) : t.place = s.place := by
  cases w with
  | toReg => exact place_load h
  | toMem => exact place_readReg h

/-! ### Moves -/

theorem place_moveAt {sp : DSpace} {w : Dir} {a : Addr} {r : Reg} (h : s.moveAt sp w a r = .ok t) :
    t.place = s.place := by
  unfold State.moveAt at h
  split at h <;> cases h
  next hu => exact (place_storeSide sp w r a _ _).trans (place_fetchSide hu)

theorem place_moveEa {sp : DSpace} {x : Xfer} {r : Reg} (h : s.moveEa sp x r = .ok t) : t.place = s.place := by
  cases x with
  | toReg src =>
    simp only [State.moveEa] at h
    split at h <;> cases h
    next hu => exact (place_writeReg r _ _).trans (place_loadEa hu)
  | toMem ea =>
    simp only [State.moveEa] at h
    split at h
    · cases h
    next hu => exact (place_storeEa h).trans (place_readReg hu)

theorem place_moveXY {wx wy : Dir} {ee : XReg} {ff : YReg} {ix iy : Ind}
    (h : s.moveXY wx ee ix wy ff iy = .ok t) : t.place = s.place := by
  unfold State.moveXY at h
  split at h
  · cases h
  next hx =>
  split at h
  · cases h
  next hy =>
  split at h
  · cases h
  next hvx =>
  split at h <;> cases h
  next hvy =>
  rw [place_storeSide, place_storeSide, place_fetchSide hvy, place_fetchSide hvx, place_resolveInd hy,
    place_resolveInd hx]

/-- No move field moves PC (45_parallel_moves.md R368 to R379). -/
theorem place_runMove {mv : ParMove} (h : s.runMove mv = .ok t) : t.place = s.place := by
  cases mv with
  | none =>
    cases h
    rfl
  | imm dst i =>
    cases h
    exact place_writeReg _ _ s
  | reg src dst =>
    simp only [State.runMove] at h
    split at h <;> cases h
    next hv => exact (place_writeReg _ _ _).trans (place_readReg hv)
  | upd mm r =>
    simp only [State.runMove] at h
    split at h <;> cases h
    exact place_setR r _ s
  | xEa x r | yEa x r => exact place_moveEa h
  | xAa w aa r | yAa w aa r => exact place_moveAt h
  | lEa w ea l =>
    cases w with
    | toReg =>
      simp only [State.runMove] at h
      split at h <;> cases h
      next hu => exact (place_loadLong _ l _).trans (place_resolve hu)
    | toMem =>
      simp only [State.runMove] at h
      split at h
      · cases h
      next hv =>
      split at h <;> cases h
      next hw => rw [place_storeLong, place_resolve hw, place_readLong hv]
  | lAa w aa l =>
    cases w with
    | toReg =>
      cases h
      exact place_loadLong _ l s
    | toMem =>
      simp only [State.runMove] at h
      split at h <;> cases h
      next hv => exact (place_storeLong _ _ _).trans (place_readLong hv)
  | xr | ry =>
    simp only [State.runMove] at h
    split at h
    · cases h
    next hv =>
    split at h <;> cases h
    next hw => rw [place_writeD, place_moveEa hw, place_readLimited hv]
  | xr2 | ry2 =>
    simp only [State.runMove] at h
    split at h
    · cases h
    next hv =>
    split at h <;> cases h
    next hw => rw [place_writeD, place_storeEa hw, place_readLimited hv]
  | xy => exact place_moveXY h

theorem place_writeP {n : Nat} {a : Addr} {v : Word} (h : s.writeP n a v = .ok t) : t.place = s.place := by
  unfold State.writeP at h
  split at h <;> cases h
  rfl

theorem place_moveP {n : Nat} {w : Dir} {r : Reg} {ea : Ea} (h : s.moveP n w r ea = .ok t) : t.place = s.place := by
  cases w with
  | toReg =>
    simp only [State.moveP] at h
    split at h <;> cases h
    next hu => exact (place_writeReg r _ _).trans (place_resolve hu)
  | toMem =>
    simp only [State.moveP] at h
    split at h
    · cases h
    next hu =>
    split at h
    · cases h
    next hw => rw [place_writeP h, place_resolve hw, place_readReg hu]

theorem place_modifyReg {op : BitOp} {r : Reg} {n : BitVec 5} (h : s.modifyReg op r n = .ok t) :
    t.place = s.place := by
  unfold State.modifyReg at h
  split at h
  · cases h
  next hu =>
  injection h with h
  rw [← h, ← place_readBitReg hu]
  split <;> simp

/-! ### Loop counts -/

theorem place_countInd {sp : DSpace} {j : Ind} {n : Addr} (h : s.countInd sp j = .ok (n, t)) : t.place = s.place := by
  unfold State.countInd at h
  split at h <;> cases h
  next hu => exact (place_loadData sp _ _).trans (place_resolveInd hu)

theorem place_countAa {sp : DSpace} {aa : BitVec 6} {n : Addr} (h : s.countAa sp aa = .ok (n, t)) :
    t.place = s.place := by
  cases h
  exact place_loadData sp _ s

theorem place_countReg {r : Reg} {n : Addr} (h : s.countReg r = .ok (n, t)) : t.place = s.place := by
  unfold State.countReg at h
  split at h <;> cases h
  next hu => exact place_readReg hu

end Sys2Proof.Machine
end

section
/-! The end of an instruction moves PC past its words. -/

namespace Sys2Proof.Machine
variable {s t u : State}

/-- The end of an instruction sees nothing of the state but its place. -/
theorem place_advance_of_place (n : Nat) (h : u.place = s.place) : (u.advance n).place = (s.advance n).place := by
  simp only [State.place, Prod.mk.injEq] at h
  obtain ⟨hpc, hvec⟩ := h
  simp only [State.advance, hpc, hvec]
  split <;> simp [State.place, State.setPc, hpc, hvec]

/-- `t` stands past an instruction of `n` words fetched in `s`. -/
def Passes (n : Nat) (s t : State) : Prop := t.place = (s.advance n).place

namespace Passes

/-- Outside a vector PC has moved by the words (10_state.md R43). -/
theorem pc {n : Nat} (h : Passes n s t) (hv : s.vec = none) : t.ctl.pc = s.ctl.pc + BitVec.ofNat 16 n := by
  rw [Passes, advance_pc n hv] at h
  exact congrArg Prod.fst h

theorem of_place {n : Nat} (h : u.place = s.place) : Passes n s (u.advance n) := place_advance_of_place n h

theorem endMove {n : Nat} {r : Except Fault State} (hr : ∀ u, r = .ok u → u.place = s.place)
    (h : endMove n r = .next t) : Passes n s t := by
  cases r with
  | error f => cases h
  | ok u =>
    cases h
    exact of_place (hr u rfl)

theorem endBit {n : Nat} {r : Except Fault State} (hr : ∀ u, r = .ok u → u.place = s.place)
    (h : endBit n r = .next t) : Passes n s t :=
  endMove hr (by cases r <;> exact h)

theorem parallel {alu : State → Except Fault AluOut} {mv : ParMove} (h : parallel alu mv s = .next t) :
    Passes (1 + mv.extra) s t := by
  obtain ⟨o, u, -, hu, rfl⟩ := (parallel_next alu mv s t).1 h
  exact of_place ((place_putAlu o u).trans (place_runMove hu))

theorem moveOnly {mv : ParMove} (h : moveOnly mv s = .next t) : Passes (1 + mv.extra) s t := by
  unfold Machine.moveOnly at h
  split at h <;> cases h
  next hu => exact of_place (place_runMove hu)

theorem aluOnly {alu : State → Except Fault AluOut} (h : aluOnly alu s = .next t) : Passes 1 s t := by
  unfold Machine.aluOnly at h
  split at h <;> cases h
  exact of_place (place_putAlu _ s)

theorem beginRep {q : Except Fault (Addr × State)} (hq : ∀ n u, q = .ok (n, u) → u.place = s.place)
    (h : beginRep q = .next t) : Passes 1 s t := by
  rcases q with f | ⟨n, u⟩ <;> cases h
  exact of_place (hq n u rfl)

theorem beginDo {last : Addr} {saved : BitVec 16} {q : Except Fault (Addr × State)}
    (hq : ∀ n u, q = .ok (n, u) → u.place = s.place) (h : beginDo last saved q = .next t) : Passes 2 s t := by
  rcases q with f | ⟨n, u⟩ <;> cases h
  refine of_place ?_
  rw [place_setLf, place_push, ← hq n u rfl]
  exact place_push _ _ u

theorem testEa {sp : DSpace} {ea : Ea} {n : BitVec 5} (h : execBtstEa sp ea n s = .next t) :
    Passes (1 + ea.extra) s t := by
  refine endBit (fun u hu => ?_) h
  split at hu <;> cases hu
  next hw => exact (place_testMem sp _ n _).trans (place_resolve hw)

theorem testReg {r : Reg} {n : BitVec 5} (h : execBtstReg r n s = .next t) : Passes 1 s t := by
  refine endBit (fun u hu => ?_) h
  split at hu <;> cases hu
  next hw => exact (place_setC _ _).trans (place_readBitReg hw)

theorem modifyEa {op : BitOp} {sp : DSpace} {ea : Ea} {n : BitVec 5} (h : modifyEa op sp ea n s = .next t) :
    Passes (1 + ea.extra) s t := by
  refine endBit (fun u hu => ?_) h
  split at hu <;> cases hu
  next hw => exact (place_modifyMem op sp _ n _).trans (place_resolve hw)

theorem movepEa {ps es : DSpace} {pp : BitVec 6} {x : Xfer} (h : execMovepEa ps pp es x s = .next t) :
    Passes (1 + x.extra) s t := by
  refine endMove (fun u hu => ?_) h
  cases x with
  | toReg src =>
    simp only at hu
    split at hu <;> cases hu
    next hw => exact (place_storeData ps _ _ _).trans (place_loadEa hw)
  | toMem ea => exact (place_storeEa hu).trans (place_loadData ps _ s)

theorem movepP {ps : DSpace} {pp : BitVec 6} {w : Dir} {ea : Ea} (h : execMovepP ps pp w ea s = .next t) :
    Passes (1 + ea.extra) s t := by
  refine endMove (fun u hu => ?_) h
  cases w with
  | toReg =>
    simp only at hu
    split at hu <;> cases hu
    next hw => exact (place_storeData ps _ _ _).trans (place_resolve hw)
  | toMem =>
    simp only at hu
    split at hu
    · cases hu
    next hw => rw [place_writeP hu, place_resolve hw, place_loadData]

theorem movepReg {ps : DSpace} {pp : BitVec 6} {w : Dir} {r : Reg} (h : execMovepReg ps pp w r s = .next t) :
    Passes 1 s t := by
  refine endMove (fun u hu => ?_) h
  cases w with
  | toReg =>
    simp only at hu
    split at hu <;> cases hu
    next hw => exact (place_storeData ps _ _ _).trans (place_readReg hw)
  | toMem =>
    cases hu
    exact (place_writeReg r _ _).trans (place_loadData ps _ s)

theorem movecReg {w : Dir} {r : Reg} {c : CReg} (h : execMovecReg w r c s = .next t) : Passes 1 s t := by
  refine endMove (fun u hu => ?_) h
  split at hu <;> cases hu
  next hv => exact (place_writeReg _ _ _).trans (place_readReg hv)

theorem lua {mm : UMode} {k : BitVec 3} {dst : RNReg} (h : execLua mm k dst s = .next t) : Passes 1 s t := by
  refine endMove (fun u hu => ?_) h
  split at hu
  · cases hu
  cases dst <;> cases hu
  · exact place_setR _ _ s
  · exact place_setN _ _ s

theorem norm {k : BitVec 3} {d : Acc} (h : execNorm k d s = .next t) : Passes 1 s t := by
  unfold execNorm at h
  split at h
  · cases h
  simp only at h
  split at h
  · cases h
    exact of_place (by simp)
  · split at h <;> cases h <;> exact of_place (by simp)

end Passes

/-- The instructions that do not change flow end past their words, in a vector and outside. -/
theorem exec_passes {i : Instr} (hflow : changesFlow i = false) (h : exec i s = .next t) : Passes i.words s t := by
  cases i with
  | jsccShort | jsrShort | jccShort | jmpShort | jsccEa | jsrEa | jccEa | jmpEa
  | jssetPp | jssetAa | jssetEa | jssetReg | jsclrPp | jsclrAa | jsclrEa | jsclrReg
  | jsetPp | jsetAa | jsetEa | jsetReg | jclrPp | jclrAa | jclrEa | jclrReg | rts | rti => cases hflow
  | btstPp sp pp n | btstAa sp aa n =>
    cases h
    exact .of_place (place_testMem sp _ n s)
  | bchgPp sp pp n | bchgAa sp aa n | bsetPp sp pp n | bsetAa sp aa n | bclrPp sp pp n | bclrAa sp aa n =>
    cases h
    exact .of_place (place_modifyMem _ sp _ n s)
  | btstEa => exact .testEa h
  | bchgEa | bsetEa | bclrEa => exact .modifyEa h
  | btstReg => exact .testReg h
  | bchgReg | bsetReg | bclrReg => exact .endBit (fun _ => place_modifyReg) h
  | movepEa => exact .movepEa h
  | movepP => exact .movepP h
  | movepReg => exact .movepReg h
  | movemEa | movemAa => exact .endMove (fun _ => place_moveP) h
  | repImm count =>
    cases h
    exact .of_place rfl
  | repReg => exact .beginRep (fun _ _ => place_countReg) h
  | repEa => exact .beginRep (fun _ _ => place_countInd) h
  | repAa => exact .beginRep (fun _ _ => place_countAa) h
  | doImm count last => exact .beginDo (q := .ok (count.setWidth 16, s)) (fun _ _ hu => by cases hu; rfl) h
  | doReg => exact .beginDo (fun _ _ => place_countReg) h
  | doEa => exact .beginDo (fun _ _ => place_countInd) h
  | doAa => exact .beginDo (fun _ _ => place_countAa) h
  | movecEa => exact .endMove (fun _ => place_moveEa) h
  | movecAa => exact .endMove (fun _ => place_moveAt) h
  | movecReg => exact .movecReg h
  | movecImm j c =>
    cases h
    exact .of_place (place_writeReg c.toReg _ s)
  | lua => exact .lua h
  | tcc | tccR =>
    cases h
    refine .of_place ?_
    split <;> simp
  | norm => exact .norm h
  | divStep | dec | inc => exact .aluOnly h
  | macImm | macrImm | mpyImm | mpyrImm => cases h
  | debugcc k =>
    cases h
    exact .of_place (by split <;> simp)
  | debug =>
    cases h
    exact .of_place (place_enterDebug s)
  | ori j d | andi j d =>
    cases h
    exact .of_place (place_modifyCtl8 d _ s)
  | enddo =>
    cases h
    exact .of_place (place_leaveLoop s)
  | stop | wait =>
    cases h
    rfl
  | swi =>
    cases h
    exact .of_place (place_pend .swi s)
  | illegal =>
    cases h
    exact .of_place (place_pend .illegal s)
  | reset =>
    cases h
    exact .of_place (place_resetDevices s)
  | nop =>
    cases h
    exact .of_place rfl
  | ror d | rol d => exact .parallel (alu := aluRotate d _) h
  | tfrAcc | addr | tst | cmpAcc | subr | cmpmAcc | addAcc | rnd | addl | clr | subAcc | subl | notAcc
  | addLong | adc | subLong | sbc | asr | lsr | absAcc | asl | lsl | neg
  | addWord | tfrWord | orWord | eorWord | subWord | cmpWord | andWord | cmpmWord
  | mpy | mpyr | mac | macr => exact .parallel h
  | moveNone => exact .moveOnly (mv := .none) h
  | moveImm | moveReg | moveUpd | moveXEa | moveXAa | moveYEa | moveYAa | moveLEa | moveLAa | moveXR | moveRY
  | moveXR2 | moveRY2 | moveXY => exact .moveOnly h

/-- Settles O7: such an instruction ends past its words (`exec_passes`), which outside a vector is PC's. -/
theorem pcMovesPastTheWords : Obligations.PcMovesPastTheWords :=
  fun _ _ _ hvec hflow h => (exec_passes hflow h).pc hvec

end Sys2Proof.Machine
end

section
/-! Decoding what `encode` writes (30_encoding.md R150 to R205), from the ground up: the bytes of a word, the fields of a
byte, the field tables, the registers and the effective addresses are each read back. -/

namespace Sys2Proof

/-! ### The bytes of a word and the fields of a byte -/

@[simp] theorem hi8_join24 (h m l : BitVec 8) : hi8 (join24 h m l) = h := by
  apply BitVec.eq_of_toNat_eq
  simp only [hi8, join24, BitVec.toNat_ofNat]
  omega

@[simp] theorem mid8_join24 (h m l : BitVec 8) : mid8 (join24 h m l) = m := by
  apply BitVec.eq_of_toNat_eq
  simp only [mid8, join24, BitVec.toNat_ofNat]
  omega

@[simp] theorem lo8_join24 (h m l : BitVec 8) : lo8 (join24 h m l) = l := by
  apply BitVec.eq_of_toNat_eq
  simp only [lo8, join24, BitVec.toNat_ofNat]
  omega

@[simp] theorem addrOf_wordOf (a : Addr) : addrOf (wordOf a) = a := by
  simp [addrOf, wordOf]

/-! A byte that is put together from fields has the type `BitVec 8`, where the library's lemmas about `x ++ y` have
`BitVec (v + w)`: `simp` finds them only where the width is left out of its index. -/

@[simp] theorem extract_append_lo {v w k n : Nat} (x : BitVec v) (y : BitVec w) (h : k + n ≤ w) :
    (no_index (x ++ y)).extractLsb' k n = y.extractLsb' k n :=
  BitVec.extractLsb'_append_eq_of_add_le h

@[simp] theorem extract_append_hi {v w k n : Nat} (x : BitVec v) (y : BitVec w) (h : w ≤ k) :
    (no_index (x ++ y)).extractLsb' k n = x.extractLsb' (k - w) n :=
  BitVec.extractLsb'_append_eq_of_le h

/-- A field that is cut in two and put together again. -/
theorem append_extract {a b : Nat} (c : BitVec (a + b)) : c.extractLsb' b a ++ c.extractLsb' 0 b = c := by
  rw [BitVec.extractLsb'_append_extractLsb'_eq_extractLsb' (by omega), BitVec.extractLsb'_eq_self]

@[simp] theorem append_extract_reg (c : BitVec 5) : c.extractLsb' 3 2 ++ c.extractLsb' 0 3 = c :=
  append_extract (a := 2) (b := 3) c

@[simp] theorem append_extract_long (c : BitVec 3) : c.extractLsb' 2 1 ++ c.extractLsb' 0 2 = c :=
  append_extract (a := 1) (b := 2) c

@[simp] theorem append_extract_addr (c : BitVec 12) : c.extractLsb' 8 4 ++ c.extractLsb' 0 8 = c :=
  append_extract (a := 4) (b := 8) c

/-- One bit of a byte as a field of one bit. -/
theorem bitOf_eq (b : BitVec 8) (k : Nat) : bitOf b k = decide (b.extractLsb' k 1 = 1#1) := by
  have h : b.getLsbD k = (b.extractLsb' k 1).getLsbD 0 := by simp
  rw [bitOf, h]
  generalize b.extractLsb' k 1 = c
  revert c
  decide

/-! ### The field tables (R160 to R168) -/

@[simp] theorem decAcc_encAcc (d : Acc) : decAcc (encAcc d = 1#1) = d := by cases d <;> rfl
@[simp] theorem decXSel_encXSel (e : XSel) : decXSel (encXSel e = 1#1) = e := by cases e <;> rfl
@[simp] theorem decYSel_encYSel (f : YSel) : decYSel (encYSel f = 1#1) = f := by cases f <;> rfl
@[simp] theorem decSpace_encSpace (s : DSpace) : decSpace (encSpace s = 1#1) = s := by cases s <;> rfl
@[simp] theorem decDir_encDir (w : Dir) : decDir (encDir w = 1#1) = w := by cases w <;> rfl
@[simp] theorem bit1_eq_one (b : Bool) : (bit1 b = 1#1) = b := by cases b <;> decide
@[simp] theorem decWReg_encWReg (w : WReg) : decWReg (encWReg w) = w := by cases w <;> rfl
@[simp] theorem decXReg_encXReg (x : XReg) : decXReg (encXReg x) = x := by cases x <;> rfl
@[simp] theorem decYReg_encYReg (y : YReg) : decYReg (encYReg y) = y := by cases y <;> rfl
@[simp] theorem decLOp_encLOp (l : LOp) : decLOp (encLOp l) = l := by cases l <;> rfl
@[simp] theorem decUMode_encUMode (m : UMode) : decUMode (encUMode m) = m := by cases m <;> rfl
@[simp] theorem decXYMode_encXYMode (m : XYMode) : decXYMode (encXYMode m) = m := by cases m <;> rfl
@[simp] theorem decCond_encCond (k : Cond) : decCond (encCond k) = k := by cases k <;> rfl
@[simp] theorem decCtl_encCtl (c : CtlReg) : decCtl (encCtl c) = .ok c := by cases c <;> rfl
@[simp] theorem decDReg_encDReg (x : DReg) : decDReg (encDReg x) = .ok x := by cases x <;> rfl
@[simp] theorem decImmDest_encImmDest (d : ImmDest) : decImmDest (encImmDest d) = .ok d := by cases d <;> rfl

@[simp] theorem decTSrc_encTSrc (t : TSrc) : decTSrc (encTSrc t) = .ok t := by
  cases t with
  | other => rfl
  | word w => cases w <;> rfl

/-! ### Registers (10_state.md R57, R59) -/

@[simp] theorem decReg5_encReg5 (r : Reg5) : decReg5 (encReg5 r) = .ok r := by
  cases r with
  | d x => cases x <;> rfl
  | r k => revert k; decide
  | n k => revert k; decide

@[simp] theorem decReg_encReg (r : Reg) : decReg (encReg r) = .ok r := by
  cases r with
  | d x => cases x <;> rfl
  | r k => revert k; decide
  | n k => revert k; decide
  | m k => revert k; decide
  | c x => cases x <;> rfl

@[simp] theorem decCReg_encCReg (c : CReg) : decCReg (encCReg c) = .ok c := by
  cases c with
  | m k => revert k; decide
  | c x => cases x <;> rfl

@[simp] theorem decRN_encRN (d : RNReg) : decRN (encRN d) = d := by
  cases d with
  | r k => revert k; decide
  | n k => revert k; decide

/-- The codes 0 to 3, which name no register, are those with 000 in bits 4:2. -/
theorem encReg5_bits_ne (r : Reg5) : (encReg5 r).extractLsb' 2 3 ≠ 0#3 := by
  cases r with
  | d x => cases x <;> decide
  | r k => revert k; decide
  | n k => revert k; decide

/-- The move fields NOP and U stand at codes that name no register (R176, R177). -/
theorem encReg5_ne (r : Reg5) : encReg5 r ≠ 0#5 ∧ encReg5 r ≠ 2#5 := by
  have h := encReg5_bits_ne r
  generalize encReg5 r = c at *
  revert c
  decide

/-- L: moves stand at codes that name no register: a register code with bits 4:3 = 00 has bit 2 = 1 (R171 to R173). -/
theorem encReg5_bit_two {r : Reg5} (h : (encReg5 r).extractLsb' 3 2 = 0#2) : (encReg5 r).extractLsb' 2 1 = 1#1 := by
  have h' := encReg5_bits_ne r
  generalize encReg5 r = c at *
  revert c
  decide

/-! ### Decoders in sequence -/

section Sequence
variable {α β : Type}

@[simp] theorem ok_bind (a : α) (f : α → Except DecodeError β) : (Except.ok a >>= f) = f a := rfl
@[simp] theorem map_ok (a : α) (f : α → β) : (Except.ok a : Except DecodeError α).map f = .ok (f a) := rfl
@[simp] theorem functor_map_ok (a : α) (f : α → β) : f <$> (Except.ok a : Except DecodeError α) = .ok (f a) := rfl
@[simp] theorem mapError_ok (a : α) (f : DecodeError → DecodeError) :
    (Except.ok a : Except DecodeError α).mapError f = .ok a := rfl
@[simp] theorem pure_eq_ok (a : α) : (pure a : Except DecodeError α) = .ok a := rfl

end Sequence

/-! ### Effective addresses (20_memory.md R120, R122) -/

@[simp] theorem decInd_encInd (i : Ind) : decInd (encInd i) = .ok i := by
  obtain ⟨m, k⟩ := i
  cases m <;> (revert k; decide)

/-- The mode 110 is none of the indirect ones. -/
theorem encInd_ne {f : BitVec 6} (h : f.extractLsb' 3 3 = 6) (i : Ind) : encInd i ≠ f := by
  rintro rfl
  have hi := decInd_encInd i
  rw [decInd, h] at hi
  cases hi

@[simp] theorem decEa_encEa (ea : Ea) (x : Word) : decEa (encEa ea) ((extEa ea).getD x) = .ok ea := by
  cases ea with
  | ind i => simp [decEa, encEa, encInd_ne]
  | abs a => simp [decEa, encEa, extEa]

theorem encEa_ne_imm (ea : Ea) : encEa ea ≠ 0b110100#6 := by
  cases ea with
  | ind i => exact encInd_ne rfl i
  | abs a => simp [encEa]

@[simp] theorem decXfer_encXfer (t : Xfer) (x : Word) :
    decXfer (encXferW t = 1#1) (encXfer t) ((extXfer t).getD x) = .ok t := by
  cases t with
  | toMem ea => simp [decXfer, encXferW, encXfer, extXfer]
  | toReg src =>
    cases src with
    | mem ea => simp [decXfer, decEaImm, encXferW, encXfer, encEaImm, extXfer, extEaImm, encEa_ne_imm]
    | imm v => simp [decXfer, decEaImm, encXferW, encXfer, encEaImm, extXfer, extEaImm]

end Sys2Proof
end

section
/-! Decoding what `encode` writes, class P words: the move field, and the operation code beside it. -/

namespace Sys2Proof

/-! ### The move field (R170 to R184) -/

/-- One of bits 23:20 marks a word as class P (R155). -/
theorem isClassP_of_bit {h : BitVec 8} {k : Nat} (hk : 4 ≤ k) (hb : bitOf h k = true) (m : BitVec 8) :
    isClassP h m = true := by
  have hhigh : bits h 4 4 ≠ 0#4 := by
    intro hzero
    have hk8 : k < 8 := BitVec.lt_of_getLsbD hb
    have hbit := congrArg (BitVec.getLsbD · (k - 4)) hzero
    have hplace : 4 + (k - 4) = k := by omega
    have hset : h.getLsbD k = true := hb
    have hin : k - 4 < 4 := by omega
    simp [bits, hplace, hset, hin] at hbit
  simp [isClassP, hhigh]

/-- A move field marks its word as class P: by bit 23, 22, 21 or 20, or as a class II move (R155). -/
theorem isClassP_encMove (mv : ParMove) : isClassP (encMove mv).1 (encMove mv).2 = true := by
  cases mv
  case none => rfl
  case xy =>
    exact isClassP_of_bit (k := 7) (by decide) (by simp [bitOf_eq, encMove]) _
  case xEa | xAa | yEa | yAa | lEa | lAa =>
    exact isClassP_of_bit (k := 6) (by decide) (by simp [bitOf_eq, encMove]) _
  case imm | reg | upd =>
    exact isClassP_of_bit (k := 5) (by decide) (by simp [bitOf_eq, encMove]) _
  case xr | ry =>
    exact isClassP_of_bit (k := 4) (by decide) (by simp [bitOf_eq, encMove]) _
  case xr2 | ry2 => simp [bits, bitOf_eq, encMove, isClassP]

theorem decMoveR_reg (s d : Reg5) : decMoveR (encMove (.reg s d)).1 (encMove (.reg s d)).2 = .ok (.reg s d) := by
  obtain ⟨hnop, hupd⟩ := encReg5_ne s
  simp [bits, encMove, decMoveR, hnop, hupd]

theorem decMoveR_upd (mm : UMode) (r : BitVec 3) :
    decMoveR (encMove (.upd mm r)).1 (encMove (.upd mm r)).2 = .ok (.upd mm r) := by
  have hcode : bits (encMove (.upd mm r)).1 0 2 ++ bits (encMove (.upd mm r)).2 5 3 = 2#5 := by
    simp [bits, encMove]
  have hmode : bits (encMove (.upd mm r)).2 3 2 = encUMode mm := by
    simp [bits, encMove]
  have hreg : bits (encMove (.upd mm r)).2 0 3 = r := by
    simp [bits, encMove]
  simp [decMoveR, hcode, hmode, hreg]

/-- The move field is read back, whatever word follows one without an extension word. -/
theorem decMove_encMove (mv : ParMove) (x : Word) :
    decMove (encMove mv).1 (encMove mv).2 ((extMove mv).getD x) = .ok mv := by
  cases mv with
  | none => rfl
  | imm => simp [bits, bitOf_eq, encMove, decMove, encReg5_bits_ne]
  | reg =>
    rw [← decMoveR_reg]
    simp [bits, bitOf_eq, encMove, decMove]
  | upd =>
    rw [← decMoveR_upd]
    simp [bits, bitOf_eq, encMove, decMove]
  | xEa | yEa =>
    simp +contextual [bits, bitOf_eq, encMove, decMove, decMoveMem, extMove,
      encReg5_bit_two]
  | xAa | yAa =>
    simp +contextual [bits, bitOf_eq, encMove, decMove, decMoveMem,
      encReg5_bit_two]
  | lEa => simp [bits, bitOf_eq, encMove, decMove, decMoveMem, extMove]
  | lAa => simp [bits, bitOf_eq, encMove, decMove, decMoveMem]
  | xr | ry | xr2 | ry2 => simp [bits, bitOf_eq, encMove, decMove, extMove]
  | xy => simp [bits, bitOf_eq, encMove, decMove]

/-! ### The word -/

/-- A class P word is read back when its operation code is (R186 to R189). -/
theorem decodeRaw_encPar {mv : ParMove} {op : BitVec 8} {i : Instr} (h : decAlu op mv = .ok i) (x : Word) :
    decodeRaw (encPar mv op).1 ((encPar mv op).2.getD x) = .ok i := by
  simp [decodeRaw, encPar, isClassP_encMove, decMove_encMove, h]

end Sys2Proof
end

section
/-! Decoding what `encode` writes, class N words by their top byte, and then every word. -/

namespace Sys2Proof

/-! ### The pages of class N (R190 to R204) -/

section Pages
variable (m l : BitVec 8) (x : Word)

@[simp] theorem decodeRaw_00 : decodeRaw (join24 0x00#8 m l) x = decZero m l := by simp [decodeRaw, isClassP, bits]
@[simp] theorem decodeRaw_01 : decodeRaw (join24 0x01#8 m l) x = decNormDiv m l := by simp [decodeRaw, isClassP, bits]
@[simp] theorem decodeRaw_02 : decodeRaw (join24 0x02#8 m l) x = decTcc false m l := by simp [decodeRaw, isClassP, bits]
@[simp] theorem decodeRaw_03 : decodeRaw (join24 0x03#8 m l) x = decTcc true m l := by simp [decodeRaw, isClassP, bits]
@[simp] theorem decodeRaw_04 : decodeRaw (join24 0x04#8 m l) x = decMovecReg m l := by simp [decodeRaw, isClassP, bits]
@[simp] theorem decodeRaw_05 : decodeRaw (join24 0x05#8 m l) x = decMovecMem m l x := by
  simp [decodeRaw, isClassP, bits]
@[simp] theorem decodeRaw_06 : decodeRaw (join24 0x06#8 m l) x = decLoop m l x := by simp [decodeRaw, isClassP, bits]
@[simp] theorem decodeRaw_07 : decodeRaw (join24 0x07#8 m l) x = decMovem m l x := by simp [decodeRaw, isClassP, bits]
@[simp] theorem decodeRaw_0A : decodeRaw (join24 0x0A#8 m l) x = decBitPage false m l x := by
  simp [decodeRaw, isClassP, bits]
@[simp] theorem decodeRaw_0B : decodeRaw (join24 0x0B#8 m l) x = decBitPage true m l x := by
  simp [decodeRaw, isClassP, bits]

end Pages

/-- MOVEP has bit 14 = 1, which tells it from a class II move (R155, R195). -/
theorem decodeRaw_movep (ps : DSpace) {m : BitVec 8} (hm : bitOf m 6 = true) (l : BitVec 8) (x : Word) :
    decodeRaw (join24 (0b0000100#7 ++ encSpace ps) m l) x = decMovep ps m l x := by
  cases ps <;> simp [encSpace, decodeRaw, isClassP, bits, hm]

/-- Bits 15:8 of a multiply by a power of two are neither NORM's nor DIV's (R202, R203). -/
theorem multiply_bits (sh : BitVec 5) :
    (0#3 ++ sh).extractLsb' 3 5 ≠ 0b11011#5 ∧ 0#3 ++ sh ≠ 0x80#8 := by
  revert sh
  decide

/-! ### Every word -/

/-- An instruction's words are read back, well formed or not. -/
theorem decodeRaw_encode (i : Instr) (x : Word) : decodeRaw (encode i).1 ((encode i).2.getD x) = .ok i := by
  cases i
  case jsccShort | jccShort | jsrShort | jmpShort =>
    simp [bits, bitOf_eq, encode, decodeRaw, isClassP]
  case jsccEa | jsrEa | jccEa | jmpEa =>
    simp [bits, bitOf_eq, encode, decBitPage]
  case jssetPp | jssetEa | jssetAa | jssetReg | jsclrPp | jsclrEa | jsclrAa | jsclrReg
    | jsetPp | jsetEa | jsetAa | jsetReg | jclrPp | jclrEa | jclrAa | jclrReg
    | btstPp | btstEa | btstAa | btstReg | bchgPp | bchgEa | bchgAa | bchgReg
    | bsetPp | bsetEa | bsetAa | bsetReg | bclrPp | bclrEa | bclrAa | bclrReg =>
    simp [bits, bitOf_eq, encode, encBit, decBitPage, decBit]
  case movepEa | movepP | movepReg =>
    rw [encode, decodeRaw_movep _ (by simp [bitOf_eq])]
    simp [bits, bitOf_eq, decMovep]
  case movemEa | movemAa => simp [bits, bitOf_eq, encode, decMovem]
  case repImm | repReg | repEa | repAa | doImm | doReg | doEa | doAa =>
    simp [bits, bitOf_eq, encode, decLoop]
  case movecEa | movecAa | movecImm =>
    simp [bits, bitOf_eq, encode, decMovecMem]
  case movecReg | lua => simp [bits, bitOf_eq, encode, decMovecReg]
  case tcc | tccR => simp [bits, bitOf_eq, encode, decTcc]
  case norm | divStep => simp [bits, bitOf_eq, encode, decNormDiv]
  case macImm sh | macrImm sh | mpyImm sh | mpyrImm sh =>
    obtain ⟨hnorm, hdiv⟩ := multiply_bits sh
    simp [bits, bitOf_eq, encode, decNormDiv, hnorm, hdiv]
  case ori | andi => simp [bits, encode, decZero]
  case debugcc k => cases k <;> rfl
  case debug | enddo | stop | wait | reset | rts | swi | illegal | rti | nop => rfl
  case dec d | inc d => cases d <;> rfl
  case tfrAcc d _ | addr d _ | tst d _ | cmpAcc d _ | subr d _ | cmpmAcc d _ | addAcc d _ | rnd d _ | addl d _
    | clr d _ | subAcc d _ | subl d _ | notAcc d _ | asr d _ | lsr d _ | absAcc d _ | ror d _ | asl d _ | lsl d _
    | neg d _ | rol d _ =>
    exact decodeRaw_encPar (by cases d <;> rfl) x
  case addLong j d _ | adc j d _ | subLong j d _ | sbc j d _ =>
    exact decodeRaw_encPar (by cases j <;> cases d <;> rfl) x
  case addWord w d _ | tfrWord w d _ | orWord w d _ | eorWord w d _ | subWord w d _ | cmpWord w d _ | andWord w d _
    | cmpmWord w d _ =>
    exact decodeRaw_encPar (by cases w <;> cases d <;> rfl) x
  case mpy g q d _ | mpyr g q d _ | mac g q d _ | macr g q d _ =>
    exact decodeRaw_encPar (by cases g <;> cases q <;> cases d <;> rfl) x
  case moveNone | moveImm | moveReg | moveUpd | moveXEa | moveXAa | moveYEa | moveYAa | moveLEa | moveLAa
    | moveXR | moveRY | moveXR2 | moveRY2 | moveXY =>
    exact decodeRaw_encPar rfl x

/-- Settles O1: the words are read back (`decodeRaw_encode`), and a well-formed instruction passes the checks. -/
theorem decodeOfEncodeIsTheInstruction : Obligations.DecodeOfEncodeIsTheInstruction := by
  intro i x hwf
  have hcheck : i.check = none := hwf
  simp only [decode, decodeRaw_encode, hcheck]

end Sys2Proof
end

section
/-! Lengths of class P instructions: the extension word is the move's (30_encoding.md R152). -/

namespace Sys2Proof
open Machine

/-- The codes of MMMRRR that ask for an extension word: the absolute address and the immediate datum. -/
def extended (f : BitVec 6) : Prop := f = 0b110000 ∨ f = 0b110100

theorem ea_extra (ea : Ea) : ea.extra = 1 ∧ extended (encEa ea) ∨ ea.extra = 0 ∧ ¬extended (encEa ea) := by
  cases ea with
  | ind i => exact .inr ⟨rfl, not_or.2 ⟨encInd_ne rfl i, encInd_ne rfl i⟩⟩
  | abs a => exact .inl ⟨rfl, .inl rfl⟩

theorem xfer_extra (x : Xfer) : x.extra = 1 ∧ extended (encXfer x) ∨ x.extra = 0 ∧ ¬extended (encXfer x) :=
  match x with
  | .toReg (.mem ea) | .toMem ea => ea_extra ea
  | .toReg (.imm _) => .inl ⟨rfl, .inr rfl⟩

theorem move_extra (mv : ParMove) : mv.extra = 1 ∧ hasExtension mv ∨ mv.extra = 0 ∧ ¬hasExtension mv := by
  cases mv with
  | xEa x r | yEa x r | xr ee x d f | ry d e ff x => exact xfer_extra x
  | lEa w ea l | xr2 d ea | ry2 d ea => exact ea_extra ea
  | none | imm | reg | upd | xAa | yAa | lAa | xy => exact .inr ⟨rfl, id⟩

variable {i : Instr} {d : Option Acc} {mv : ParMove}

theorem words_of_parallel (h : i.parallel? = some (d, mv)) : i.words = 1 + mv.extra := by
  simp only [Instr.words, h]

/-- The second word of a class P instruction is its move's extension word. -/
theorem encode_ext_of_parallel (h : i.parallel? = some (d, mv)) : (encode i).2 = extMove mv := by
  cases i <;> cases h <;> rfl

/-- Settles O4: length and second word are the move's, by `move_extra`. -/
theorem extensionWordsBelongToTheMove : Obligations.ExtensionWordsBelongToTheMove := by
  intro i d mv h
  rw [words_of_parallel h, encode_ext_of_parallel h, Laws.extMove_isSome]
  rcases move_extra mv with ⟨hextra, hmv⟩ | ⟨hextra, hmv⟩ <;> simp [hextra, hmv]

end Sys2Proof
end

section
/-! REP: its start, which holds the next word, and its passes, which count LC down (40_rep.md R230 to R242). -/

namespace Sys2Proof.Machine

/-! ### The start (40_rep.md R230 to R236) -/

section Start
variable {i : Instr} {s u : State} {count : Addr}

/-- The hidden state that REP sets up: LC in TEMP, and the word after the REP word held. -/
theorem repStart_rep (count : Addr) (u : State) : (u.repStart count).rep =
    { temp := u.ctl.lc, repeating := true, word := u.peek .p u.fetchAddrs.2 } := by
  simp only [State.repStart, State.advance]
  cases u.vec <;> rfl

/-- Beside the hidden state of REP its start changes LC, and ends the REP word. -/
theorem repStart_state (count : Addr) (u : State) : u.repStart count =
    { u.advance 1 with rep := (u.repStart count).rep, ctl := { (u.advance 1).ctl with lc := count } } := by
  simp only [State.repStart, State.advance, State.setPc]
  cases h : u.vec <;> rfl

theorem repStart_lc (count : Addr) (u : State) : (u.repStart count).ctl.lc = count := by
  rw [repStart_state]

/-- Outside a vector the start moves PC to the held word. -/
theorem repStart_pc (count : Addr) (hvec : u.vec = none) : (u.repStart count).ctl.pc = u.ctl.pc + 1 := by
  rw [repStart_state, advance_pc 1 hvec]
  rfl

/-- Outside a vector the held word is the one after PC. -/
theorem repStart_word (count : Addr) (hvec : u.vec = none) :
    (u.repStart count).rep.word = u.peek .p (u.ctl.pc + 1) := by
  simp only [repStart_rep, State.fetchAddrs, hvec]

/-- REP in any form: the read of the count keeps the place in the fetch stream and the memories, so the word held is the
one that `s` fetches next. -/
theorem rep_starts (h : exec i s = .next (u.repStart count)) (hplace : u.place = s.place) (hstore : u.store = s.store) :
    ∃ t, exec i s = .next t ∧ t.ctl.lc = count ∧ t.rep.temp = u.ctl.lc ∧ t.rep.repeating = true ∧
      (s.vec = none → t.rep.word = s.peek .p (s.ctl.pc + 1) ∧ t.ctl.pc = s.ctl.pc + 1) ∧
      t = { u.advance 1 with rep := t.rep, ctl := { (u.advance 1).ctl with lc := count } } := by
  have hpc : u.ctl.pc = s.ctl.pc := congrArg Prod.fst hplace
  have hvec : u.vec = s.vec := congrArg Prod.snd hplace
  have hmem : u.mem = s.mem := congrArg Prod.fst hstore
  refine ⟨_, h, repStart_lc count u, by rw [repStart_rep], by rw [repStart_rep], fun hs => ⟨?word, ?pc⟩,
    repStart_state count u⟩
  case word => simp only [repStart_word count (hvec.trans hs), State.peek, hmem, hpc]
  case pc => rw [repStart_pc count (hvec.trans hs), hpc]

end Start

/-! The count of each form (R230 to R233). -/

section Forms
variable {s u : State}

theorem exec_repImm (c : BitVec 12) (s : State) : exec (.repImm c) s = .next (s.repStart (c.setWidth 16)) := rfl

theorem exec_repReg {r : Reg} {v : Word} (h : s.readReg r = .ok (v, u)) :
    exec (.repReg r) s = .next (u.repStart (v.setWidth 16)) := by
  change beginRep (s.countReg r) = _
  simp only [State.countReg, h, beginRep, countOf]

theorem exec_repEa {sp : DSpace} {j : Ind} {a : Addr} (h : s.resolveInd j = .ok (a, u)) :
    exec (.repEa sp j) s = .next ((u.loadData sp a).2.repStart ((u.loadData sp a).1.setWidth 16)) := by
  change beginRep (s.countInd sp j) = _
  simp only [State.countInd, h, beginRep, countOf]

/-- An absolute short address is never one of the I/O range, so this count comes from memory. -/
theorem exec_repAa (sp : DSpace) (aa : BitVec 6) (s : State) :
    exec (.repAa sp aa) s = .next (s.repStart ((s.peek sp.toSpace (aa.setWidth 16)).setWidth 16)) := by
  change beginRep (s.countAa sp aa) = _
  simp only [State.countAa, loadData_memory (isIo_shortAddr aa), beginRep, countOf]
  rfl

end Forms

/-- Settles O48: each form starts the repeat from its count (`rep_starts`), and reading the count moves neither the
place in the fetch stream nor the memories. -/
theorem repStartsTheRepeat : Obligations.RepStartsTheRepeat := by
  rintro s u i count (⟨c, rfl, rfl, rfl⟩ | ⟨r, v, rfl, hread, rfl⟩ | ⟨sp, j, a, w, rfl, hw, rfl, rfl⟩ |
    ⟨sp, aa, rfl, rfl, rfl⟩)
  case inl => exact rep_starts (exec_repImm c u) rfl rfl
  case inr.inl => exact rep_starts (exec_repReg hread) (place_readReg hread) (store_readReg hread)
  case inr.inr.inl =>
    exact rep_starts (exec_repEa hw) ((place_loadData sp a w).trans (place_resolveInd hw))
      ((store_loadData sp a w).trans (store_resolveInd hw))
  case inr.inr.inr => exact rep_starts (exec_repAa sp aa u) rfl rfl

/-! ### What can be repeated (40_rep.md R240) -/

/-- An instruction has one word or two (30_encoding.md R150, R151). -/
theorem words_one_or_two (i : Instr) : i.words = 1 ∨ i.words = 2 := by
  have of_extra {n : Nat} {p q : Prop} (h : n = 1 ∧ p ∨ n = 0 ∧ q) : 1 + n = 1 ∨ 1 + n = 2 := by omega
  unfold Instr.words
  split
  · next mv _ => exact of_extra (move_extra mv)
  · split
    case h_1 | h_2 | h_3 | h_4 | h_5 | h_6 | h_7 | h_8 | h_9 | h_10 => exact of_extra (ea_extra _)
    case h_11 | h_12 => exact of_extra (xfer_extra _)
    case h_33 => exact .inl rfl
    all_goals exact .inr rfl

/-- What REP can repeat is one word long, is no REP, and does not change program flow. -/
theorem repeatable {i : Instr} (h : badRepeat i = false) : i.words = 1 ∧ isRep i = false ∧ changesFlow i = false := by
  obtain ⟨h, hother⟩ := Bool.or_eq_false_iff.1 h
  obtain ⟨h, hbit⟩ := Bool.or_eq_false_iff.1 h
  obtain ⟨h, hjump⟩ := Bool.or_eq_false_iff.1 h
  obtain ⟨h, hrep⟩ := Bool.or_eq_false_iff.1 h
  obtain ⟨hwords, -⟩ := Bool.or_eq_false_iff.1 h
  refine ⟨(words_one_or_two i).resolve_right (beq_eq_false_iff_ne.1 hwords), hrep,
    Bool.eq_false_iff.2 fun hflow => ?_⟩
  rcases changesFlow_iff.1 hflow with hj | hb | rfl | rfl
  · simp [hj] at hjump
  · simp [hb] at hbit
  · cases hother
  · cases hother

/-! ### The passes (40_rep.md R236 to R242) -/

section Pass
variable {i : Instr} {s t : State}

/-- Without events a step of a repeat in the normal state is a pass. -/
theorem step_repeating (hproc : s.proc = .normal) (hinbox : s.inbox = []) (hrep : s.rep.repeating = true) :
    step s = runPass s := by
  rw [step_inbox_nil hinbox, runState_running (.inl hproc), runCore, if_pos hrep]

/-- A held word that is no instruction is not repeated (R240). -/
theorem runPass_error {e : DecodeError} (h : decode s.rep.word 0 = .error e) : runPass s = .fault .notRepeatable := by
  simp only [runPass, h]

/-- An instruction that REP cannot repeat stops (R240). -/
theorem runPass_bad (h : decode s.rep.word 0 = .ok i) (hbad : badRepeat i = true) :
    runPass s = .fault .notRepeatable := by
  simp only [runPass, h, hbad, if_true]

/-- A repeated instruction that writes LC stops (R242). -/
theorem runPass_writesLc (h : decode s.rep.word 0 = .ok i) (hbad : badRepeat i = false) (hlc : writesLc i = true) :
    runPass s = .fault .repeatWritesLc := by
  simp only [runPass, h, hbad, hlc, Bool.false_eq_true, if_false, if_true]

/-- Every other held word is issued as an instruction (R237). -/
theorem runPass_ok (h : decode s.rep.word 0 = .ok i) (hbad : badRepeat i = false) (hlc : writesLc i = false) :
    runPass s = issue i s := by
  simp only [runPass, h, hbad, hlc, Bool.false_eq_true, if_false]

/-- The last pass ends the repeat and gives LC its old value back. -/
theorem repPass_last (s : State) (h : t.ctl.lc = 1) : s.repPass t =
    { t with ctl := { t.ctl with lc := t.rep.temp }, rep := { t.rep with repeating := false } } := if_pos h

/-- Any other pass counts LC down and goes back to where the pass began. -/
theorem repPass_other (s : State) (h : t.ctl.lc ≠ 1) : s.repPass t =
    { t with ctl := { t.ctl with lc := t.ctl.lc - 1, pc := s.ctl.pc }, vec := s.vec } := if_neg h

/-- No vector is in progress after a pass that began and ran outside one. -/
theorem repPass_vec (hs : s.vec = none) (ht : t.vec = none) : (s.repPass t).vec = none := by
  by_cases hlc : t.ctl.lc = 1
  · rw [repPass_last s hlc, ← ht]
  · rw [repPass_other s hlc, ← hs]

/-- The end of a vector where none is in progress. -/
theorem endVector_none (h : t.vec = none) : t.endVector = t := by simp only [State.endVector, h]

/-- Without an active loop no pass of a loop ends. -/
theorem loopEnds_of_lf (n : Nat) (t : State) (h : s.lf = false) : loopEnds n s t = false := by
  simp only [loopEnds, h, Bool.and_false, Bool.false_and]

/-- Outside loops and vectors nothing but the marks and the count follows the instruction of a pass; a pass is not
traced on its own (60_exceptions.md R506). -/
theorem retire_pass (i : Instr) (hrep : s.rep.repeating = true) (hlf : s.lf = false) (hs : s.vec = none)
    (ht : t.vec = none) : retire i s t = s.repPass (State.mark i s t) := by
  have htraced : s.traced (State.mark i s t) = State.mark i s t := by
    simp only [State.traced, hrep, Bool.not_true, Bool.and_false, Bool.false_eq_true, if_false]
  have hvec : (s.repPass (State.mark i s t)).vec = none := repPass_vec hs ht
  simp only [retire, htraced, hrep, if_true, loopEnds_of_lf _ _ hlf, Bool.false_eq_true, if_false, endVector_none hvec]

end Pass

/-- Settles O49: the step of a repeat is `runPass`, which stops or issues the held instruction; `retire_pass` is what
follows it, and such an instruction itself moves PC past its one word and keeps the repeat going. -/
theorem repPassesCountDown : Obligations.RepPassesCountDown := by
  refine ⟨fun s t i hproc hinbox hvec hlf hrep hi hbad hlc hz ht => ?passes, fun s hproc hinbox hrep => ?stops⟩
  case passes =>
    obtain ⟨hwords, hnorep, hflow⟩ := repeatable hbad
    obtain ⟨-, -, -, -, -, hkeep, hout, -⟩ := hiddenStateFrame i s t ht
    have hpc : t.ctl.pc = s.ctl.pc + 1 := by
      rw [pcMovesPastTheWords i s t hvec hflow ht, hwords]
      rfl
    have hstep : step s = .next (s.repPass (State.mark i s t)) := by
      rw [step_repeating hproc hinbox hrep, runPass_ok hi hbad hlc, issue_next hz ht,
        retire_pass i hrep hlf hvec (hout hvec)]
    refine ⟨fun hone => ⟨_, hstep, ?_⟩, fun hmore => ⟨_, hstep, ?_⟩⟩
    · rw [repPass_last (t := State.mark i s t) s hone]
      exact ⟨rfl, rfl, hpc, rfl, rfl, rfl, rfl⟩
    · rw [repPass_other (t := State.mark i s t) s hmore]
      have hgoing : t.rep.repeating = true := by rw [hkeep hnorep, hrep]
      exact ⟨hgoing, rfl, rfl, rfl, rfl, rfl, rfl⟩
  case stops =>
    rw [step_repeating hproc hinbox hrep]
    exact ⟨fun _ => runPass_error, fun _ => runPass_bad, fun _ => runPass_writesLc⟩

end Sys2Proof.Machine
end

section
/-! RTI and RTS: the pair in use is pulled from the stack into PC, and for RTI into SR (41_program_control.md R254,
R258). -/

namespace Sys2Proof.Machine

variable {s : State}

theorem exec_rti (s : State) : exec .rti s = .next ((s.pull.2.setSr s.pull.1.2).setPc s.pull.1.1) := rfl

theorem exec_rts (s : State) : exec .rts s = .next (s.pull.2.setPc s.pull.1.1) := rfl

/-! ### The pair pulled -/

/-- Locations 1 to the stack's depth are on the stack (10_state.md R51, R52). -/
theorem onStack_of_loc {k : Nat} (hloc : s.ssLoc.toNat = k + 1) (hdepth : k < s.plat.stackDepth.val) :
    s.onStack = true := by
  have hne : s.ssLoc ≠ 0 := fun h0 => by simp [h0] at hloc
  simp only [State.onStack, Bool.and_eq_true, bne_iff_ne, decide_eq_true_eq]
  exact ⟨hne, by omega⟩

theorem ssPair_of_loc {k : Nat} (h : k < 15) (hloc : s.ssLoc.toNat = k + 1) : s.ssPair = s.ctl.stack[k] := by
  simp only [State.ssPair, hloc, Nat.add_sub_cancel]

/-- Off the stack the pair pulled is free (R51). -/
theorem pull_off (h : s.onStack = false) :
    s.pull.1 = (Config.ssEmptyHi s.draws, Config.ssEmptyLo s.draws) := by
  rw [State.pull, ssTop_off h]

/-- On or off the stack, a pull changes SP, the pending flags and the count of draws. -/
theorem pull_frame (s : State) : s.pull.2 = { s with
    ctl := { s.ctl with sp := s.ctl.sp - 1 }, pending := s.pull.2.pending, draws := s.pull.2.draws } := by
  rw [State.pull, decSp_state, ssTop_state]

/-- Settles O53: on the stack the pull is `pull_state`; off it the pair is free (`pull_off`), SP, the stack and the
pending flags are as `pulled` says, and `pull_frame` is the rest. -/
theorem returnsPullTheStack : Obligations.ReturnsPullTheStack := by
  refine ⟨fun s hi lo k hk hloc hdepth hpair => ?onStack, fun s hoff => ?offStack⟩
  case onStack =>
    have hpull : s.pull = ((hi, lo), { s with ctl := { s.ctl with sp := s.ctl.sp - 1 } }) := by
      rw [pull_state (onStack_of_loc hloc hdepth), ssPair_of_loc hk hloc, hpair]
    rw [exec_rti, exec_rts, hpull]
    exact ⟨rfl, rfl⟩
  case offStack =>
    obtain ⟨hsp, hstack, hpending⟩ := pulled (s := s) (t := s.pull.2) rfl
    have hpair := pull_off hoff
    have hpc : s.pull.1.1 = Config.ssEmptyHi s.draws := congrArg Prod.fst hpair
    have hsr : s.pull.2.ctl.sr = s.ctl.sr := by rw [pull_frame]
    have hplat : s.pull.2.plat = s.plat := by rw [pull_frame]
    have hdalu : s.pull.2.dalu = s.dalu := by rw [pull_frame]
    have hmem : s.pull.2.mem = s.mem := by rw [pull_frame]
    refine ⟨⟨_, exec_rti s, hpc, ?sr, hsp, hpending, hstack, hdalu, hmem⟩,
      ⟨_, exec_rts s, hpc, hsr, hsp, hpending, hstack, hdalu, hmem⟩⟩
    rw [State.setPc_ctl, State.setSr_ctl, hpair, hplat]

end Sys2Proof.Machine
end

section
/-! A data-ALU operation with a parallel move: what it leaves as the move left it (`aluFrame`), the accumulator it writes
and the CCR, said once for every operation that completes. TST reads the flags off it (42_arithmetic.md R290, R321). -/

namespace Sys2Proof.Machine

/-! ### The CCR written to a legal status register (10_state.md R44, R66) -/

/-- A CCR written to a status register is read back. -/
theorem ccrOf_withCcr (sr : BitVec 16) (k : Ccr) : ccrOf (withCcr sr k) = k := by
  obtain ⟨hc, hv, hz, hn, hu, he, hl, hs⟩ := ccr_bits k
  simp only [ccrOf, withCcr_bit, Nat.reduceLT, if_true, hc, hv, hz, hn, hu, he, hl, hs]

/-- Writing the CCR keeps the high byte of SR. -/
theorem high_withCcr (sr : BitVec 16) (k : Ccr) : (withCcr sr k).extractLsb' 8 8 = sr.extractLsb' 8 8 := by
  rw [withCcr, extract_append_hi _ _ le_rfl]
  exact BitVec.extractLsb'_eq_self

/-- Every part has the seven flags below S (10_state.md R45, R66). -/
theorem srMask_flag (p : Platform) {i : Nat} (h : i < 7) : p.srMask.getLsbD i = true := by
  simp only [Platform.srMask]
  cases p.hasSBit <;> cases p.hasDmBit <;> interval_cases i <;> rfl

/-- In a legal state a CCR that keeps S is written whole, whether or not the part has the S bit. -/
theorem setCcr_sr_of_legal {s : State} {k : Ccr} (hs : s.srLegal = true) (hk : k.s = s.ccr.s) :
    (s.setCcr k).ctl.sr = withCcr s.ctl.sr k := by
  have hmask : s.ctl.sr &&& s.plat.srMask = s.ctl.sr := eq_of_beq hs
  have hbit (i : Nat) : (s.ctl.sr.getLsbD i && s.plat.srMask.getLsbD i) = s.ctl.sr.getLsbD i := by
    rw [← BitVec.getLsbD_and, hmask]
  obtain ⟨-, -, -, -, -, -, -, hbitS⟩ := ccr_bits k
  rw [State.setCcr, State.setSr_ctl]
  refine BitVec.eq_of_getLsbD_eq fun i hi => ?_
  rw [BitVec.getLsbD_and, withCcr_bit]
  rcases lt_trichotomy i 7 with hlt | rfl | hgt
  · rw [srMask_flag _ hlt, Bool.and_true]
  · rw [if_pos (by omega), hbitS, hk]
    exact hbit 7
  · rw [if_neg (by omega), Bool.and_assoc, hbit]

/-- The flags of 56-bit arithmetic, with C computed (10_state.md R71). -/
theorem update_arithFlags (m : ScaleMode) (k : Ccr) (r : AccVal) (v c : Bool) :
    k.update (arithFlags m r v (some c)) = arithCcr m k r v c := rfl

/-- The same with C kept. -/
theorem update_arithFlags_keep (m : ScaleMode) (k : Ccr) (r : AccVal) (v : Bool) :
    k.update (arithFlags m r v none) = arithCcr m k r v k.c := rfl

/-! ### A move field's flags (45_parallel_moves.md R365) -/

/-- A move field changes no status bit but S and L. -/
theorem moveBits_subset (mv : ParMove) : bitsIn (moveBits mv) 0x00C0 := by
  have hread (r : Reg) : bitsIn (readBits r) 0x00C0 := by
    cases r with
    | d x => cases x <;> exact bitsIn_of_or (by decide)
    | _ => exact bitsIn_zero _
  have hreg (w : Dir) (r : Reg5) : bitsIn (dirBits w r.toReg) 0x00C0 := by
    cases w with
    | toReg => cases r <;> exact bitsIn_zero _
    | toMem => exact hread _
  cases mv with
  | none | imm | upd => exact bitsIn_zero _
  | reg src dst => exact hread _
  | xEa x r | yEa x r | xAa w aa r | yAa w aa r => exact hreg _ r
  | lEa w ea l | lAa w aa l =>
    cases w with
    | toReg => exact bitsIn_zero _
    | toMem =>
      cases l
      case a | b | ab | ba => exact bitsIn_refl _
      case a10 | b10 | x | y => exact bitsIn_zero _
  | xr | ry | xr2 | ry2 => exact bitsIn_refl _
  | xy wx ee mx rx wy ff my ry => exact bitsIn_or_iff.2 ⟨hreg wx (.d ee.toDReg), hreg wy (.d ff.toDReg)⟩

/-- A move field keeps the status register legal. -/
theorem runMove_srLegal {s u : State} {mv : ParMove} (hu : s.runMove mv = .ok u) (hs : s.srLegal = true) :
    u.srLegal = true :=
  (Effect.runMove hu).srLegal hs

/-- A move field leaves C alone. -/
theorem runMove_carry {s u : State} {mv : ParMove} (hu : s.runMove mv = .ok u) (hs : s.srLegal = true) :
    u.ccr.c = s.ccr.c :=
  (Effect.runMove hu).status hs 0 (moveBits_subset mv 0 (by decide))

/-! ### The results of an operation, written (42_arithmetic.md R290) -/

/-- The state with the results of a data-ALU operation: its data ALU and its CCR. -/
def State.withResult (x : DAlu) (k : Ccr) (u : State) : State :=
  { u with dalu := x, ctl := { u.ctl with sr := withCcr u.ctl.sr k } }

section Written
variable {u : State}

/-- Computed flags leave S as it is, so in a legal state they are written whole. -/
theorem setFlags_of_legal (h : u.srLegal = true) (f : FlagUpdate) :
    u.setFlags f = u.withResult u.dalu (u.ccr.update f) := by
  have hsr : (u.setFlags f).ctl.sr = withCcr u.ctl.sr (u.ccr.update f) := setCcr_sr_of_legal h rfl
  rw [State.withResult, ← hsr]
  rfl

/-- An operation that sets flags alone. -/
theorem putAlu_flags (h : u.srLegal = true) (f : FlagUpdate) :
    u.putAlu { flags := some f } = u.withResult u.dalu (u.ccr.update f) := setFlags_of_legal h f

/-- An operation that writes an accumulator and sets flags. -/
theorem putAlu_acc (h : u.srLegal = true) (d : Acc) (r : AccVal) (f : FlagUpdate) :
    u.putAlu { dst := some (d, r), flags := some f } = u.withResult (u.dalu.setAcc d r) (u.ccr.update f) :=
  setFlags_of_legal (u := u.setAcc d r) h f

/-- The end of an instruction moves PC, or uses up vector words, whatever the results are. -/
theorem advance_withResult (n : Nat) (x : DAlu) (k : Ccr) (u : State) :
    (u.withResult x k).advance n = (u.advance n).withResult x k := by
  cases hvec : u.vec <;> simp only [State.advance, State.withResult, hvec, State.setPc]

theorem advance_sr (n : Nat) (u : State) : (u.advance n).ctl.sr = u.ctl.sr := by rw [advance_state]

/-- The CCR of the results. -/
theorem ccr_withResult (n : Nat) (x : DAlu) (k : Ccr) (u : State) : ((u.withResult x k).advance n).ccr = k := by
  rw [advance_withResult]
  exact ccrOf_withCcr _ k

/-- Results that write no accumulator have the frame of one that writes none. -/
theorem aluFrame_flags (n : Nat) (k : Ccr) (u : State) :
    aluFrame none n u ((u.withResult u.dalu k).advance n) := by
  rw [advance_withResult]
  exact ⟨rfl, (high_withCcr _ k).trans (by rw [advance_sr])⟩

/-- An accumulator that is written is read back. -/
theorem dalu_acc_setAcc (x : DAlu) (d : Acc) (r : AccVal) : (x.setAcc d r).acc d = r := by cases d <;> rfl

/-- Results that write an accumulator have its frame, and the accumulator is read back. -/
theorem aluFrame_acc (n : Nat) (d : Acc) (r : AccVal) (k : Ccr) (u : State) :
    aluFrame (some d) n u ((u.withResult (u.dalu.setAcc d r) k).advance n) ∧
      ((u.withResult (u.dalu.setAcc d r) k).advance n).acc d = r := by
  rw [advance_withResult]
  have hacc : ((u.advance n).withResult (u.dalu.setAcc d r) k).acc d = r := dalu_acc_setAcc u.dalu d r
  refine ⟨⟨?_, (high_withCcr _ k).trans (by rw [advance_sr])⟩, hacc⟩
  simp only [hacc]
  rfl

end Written

/-! ### Class P instructions (42_arithmetic.md R290, 10_state.md R71) -/

section Parallel
variable {s u : State} {m : ScaleMode} {mv : ParMove}

theorem withScale_ok (f : ScaleMode → State → AluOut) (hm : s.scale = .ok m) : withScale f s = .ok (f m s) := by
  simp only [withScale, hm]

/-- An instruction that sets flags alone. -/
theorem parallel_flags (f : ScaleMode → State → FlagUpdate) (hs : s.srLegal = true) (hm : s.scale = .ok m)
    (hu : s.runMove mv = .ok u) :
    ∃ t, parallel (withScale fun m s => { flags := some (f m s) }) mv s = .next t ∧
      aluFrame none (1 + mv.extra) u t ∧ t.ccr = u.ccr.update (f m s) := by
  refine ⟨_, (parallel_next _ mv s _).2 ⟨_, u, withScale_ok _ hm, hu, rfl⟩, ?_⟩
  rw [putAlu_flags (runMove_srLegal hu hs)]
  exact ⟨aluFrame_flags _ _ u, ccr_withResult _ _ _ u⟩

/-- An instruction that writes an accumulator and sets flags. -/
theorem parallel_acc (d : Acc) (r : ScaleMode → State → AccVal) (f : ScaleMode → State → FlagUpdate)
    (hs : s.srLegal = true) (hm : s.scale = .ok m) (hu : s.runMove mv = .ok u) :
    ∃ t, parallel (withScale fun m s => { dst := some (d, r m s), flags := some (f m s) }) mv s = .next t ∧
      aluFrame (some d) (1 + mv.extra) u t ∧ t.acc d = r m s ∧ t.ccr = u.ccr.update (f m s) := by
  refine ⟨_, (parallel_next _ mv s _).2 ⟨_, u, withScale_ok _ hm, hu, rfl⟩, ?_⟩
  rw [putAlu_acc (runMove_srLegal hu hs)]
  obtain ⟨hframe, hacc⟩ := aluFrame_acc (1 + mv.extra) d (r m s) (u.ccr.update (f m s)) u
  exact ⟨hframe, hacc, ccr_withResult _ _ _ u⟩

/-- A sum or difference written to an accumulator, with all flags (10_state.md R71). -/
theorem parallel_sum (d : Acc) (q : State → Sum56) (hs : s.srLegal = true) (hm : s.scale = .ok m)
    (hu : s.runMove mv = .ok u) :
    ∃ t, parallel (withScale fun m s => sumOut d (q s) m) mv s = .next t ∧
      aluFrame (some d) (1 + mv.extra) u t ∧ t.acc d = (q s).r ∧
      t.ccr = arithCcr m u.ccr (t.acc d) (q s).v (q s).c := by
  obtain ⟨t, ht, hframe, hacc, hccr⟩ :=
    parallel_acc d (fun _ s => (q s).r) (fun m s => arithFlags m (q s).r (q s).v (some (q s).c)) hs hm hu
  exact ⟨t, ht, hframe, hacc, by rw [hccr, update_arithFlags, hacc]⟩

end Parallel

/-- Settles O28: TST sets the flags of the accumulator alone, and its move leaves C. -/
theorem testSetsFlagsOnly : Obligations.TestSetsFlagsOnly := by
  intro s u m mv d hs hm hu
  obtain ⟨t, ht, hframe, hccr⟩ := parallel_flags (fun m s => arithFlags m (s.acc d) false none) hs hm hu
  exact ⟨t, ht, hframe, hccr.trans (update_arithFlags_keep m u.ccr (s.acc d) false), runMove_carry hu hs⟩

end Sys2Proof.Machine
end

section
/-! SUB, SBC and SUBR: the exact difference, modulo 2^56 (42_arithmetic.md R299, R302, R316). -/

namespace Sys2Proof.Machine

/-! ### Exact arithmetic on 56 bits (10_state.md R69, R70) -/

theorem ofInt_sub (n : Nat) (a b : Int) : BitVec.ofInt n (a - b) = BitVec.ofInt n a - BitVec.ofInt n b := by
  rw [eq_comm, BitVec.sub_eq_iff_eq_add, ← BitVec.ofInt_add]
  congr 1
  omega

/-- The result of a subtraction is the exact difference modulo 2^56. -/
theorem sub56_r (a b : AccVal) (c : Bool) : (sub56 a b c).r = BitVec.ofInt 56 (a.toInt - b.toInt - c.toNat) := by
  have hc : (BitVec.ofBool c).setWidth 56 = BitVec.ofInt 56 c.toNat := by cases c <;> rfl
  rw [ofInt_sub, ofInt_sub, BitVec.ofInt_toInt, BitVec.ofInt_toInt, ← hc]
  rfl

/-- The shift right halves, rounding down. -/
theorem asr1_toInt (a : AccVal) : (asr1 a).toInt = a.toInt / 2 := by
  rw [asr1, BitVec.toInt_sshiftRight, Int.shiftRight_eq_div_pow]
  rfl

theorem asr1_eq_ofInt (a : AccVal) : asr1 a = BitVec.ofInt 56 (a.toInt / 2) := by
  rw [← asr1_toInt, BitVec.ofInt_toInt]

/-! ### The instructions -/

section Subtractions
variable {s u : State} {m : ScaleMode} {mv : ParMove}

/-- A difference written to an accumulator. -/
theorem parallel_sub (d : Acc) (p x : State → AccVal) (c : State → Bool) (hs : s.srLegal = true)
    (hm : s.scale = .ok m) (hu : s.runMove mv = .ok u) :
    ∃ t, parallel (withScale fun m s => sumOut d (sub56 (p s) (x s) (c s)) m) mv s = .next t ∧
      aluFrame (some d) (1 + mv.extra) u t ∧
      t.acc d = BitVec.ofInt 56 ((p s).toInt - (x s).toInt - (c s).toNat) ∧
      t.ccr = arithCcr m u.ccr (t.acc d) (overflow56 ((p s).toInt - (x s).toInt - (c s).toNat))
        (decide ((p s).toNat < (x s).toNat + (c s).toNat)) := by
  obtain ⟨t, ht, hframe, hacc, hccr⟩ := parallel_sum d (fun s => sub56 (p s) (x s) (c s)) hs hm hu
  exact ⟨t, ht, hframe, hacc.trans (sub56_r _ _ _), hccr⟩

end Subtractions

/-- Settles O25: each instruction is a difference of its operand, SUBR of the halved accumulator. -/
theorem subtractionsWriteTheDifference : Obligations.SubtractionsWriteTheDifference := by
  refine ⟨fun s u m mv d i x c hi hs hm hu => ?_, fun s u m mv d hs hm hu => ?_⟩
  · rcases hi with ⟨rfl, rfl, rfl⟩ | ⟨l, rfl, rfl, rfl⟩ | ⟨w, rfl, rfl, rfl⟩ | ⟨l, rfl, rfl, rfl⟩
    · exact parallel_sub d (·.acc d) (·.acc d.other) (fun _ => false) hs hm hu
    · exact parallel_sub d (·.acc d) (fun s => ext48 (s.dalu.long l)) (fun _ => false) hs hm hu
    · exact parallel_sub d (·.acc d) (fun s => ext24 (s.dalu.word w)) (fun _ => false) hs hm hu
    · exact parallel_sub d (·.acc d) (fun s => ext48 (s.dalu.long l)) (·.ccr.c) hs hm hu
  · have h := parallel_sub d (fun s => asr1 (s.acc d)) (·.acc d.other) (fun _ => false) hs hm hu
    simp only [asr1_toInt, Bool.toNat_false, Nat.cast_zero, sub_zero, Nat.add_zero] at h
    rw [← asr1_eq_ofInt]
    exact h

end Sys2Proof.Machine
end

section
/-! Rounding gives the nearest multiple, the even one on a tie (42_arithmetic.md R295): the integer arithmetic of
convergent rounding, then `round56` as that arithmetic modulo 2^56. -/

namespace Sys2Proof.Machine

/-! ### Convergent rounding of integers -/

/-- `v / unit` rounded down, and made even where nothing is lost: applied to a value with half a unit added, which is
lossless exactly at a tie, it is convergent rounding. -/
def evenOnTie (unit v : Int) : Int := if v % unit = 0 then v / unit - v / unit % 2 else v / unit

/-- An even number of units passes through. -/
theorem evenOnTie_add {unit : Int} (h : unit ≠ 0) (v j : Int) :
    evenOnTie unit (v + unit * (2 * j)) = evenOnTie unit v + 2 * j := by
  simp only [evenOnTie, Int.add_mul_emod_self_left, Int.add_mul_ediv_left _ _ h]
  split <;> omega

/-- With half a unit added the multiple chosen is a nearest one, and at a tie the even one. -/
theorem evenOnTie_nearest {half : Int} (h : 0 < half) (v : Int) :
    let k := evenOnTie (2 * half) (v + half);
    -(2 * half) ≤ 2 * (v - k * (2 * half)) ∧ 2 * (v - k * (2 * half)) ≤ 2 * half ∧
      (2 * (v - k * (2 * half)) = 2 * half ∨ 2 * (v - k * (2 * half)) = -(2 * half) → k % 2 = 0) := by
  have hsum := Int.ediv_mul_add_emod (v + half) (2 * half)
  have hlow := Int.emod_nonneg (v + half) (b := 2 * half) (by omega)
  have hhigh := Int.emod_lt_of_pos (v + half) (b := 2 * half) (by omega)
  simp only [evenOnTie]
  generalize (v + half) / (2 * half) = q at hsum ⊢
  split
  case isTrue htie =>
    rcases Int.emod_two_eq_zero_or_one q with hq | hq
    · rw [hq, sub_zero]
      omega
    · have hodd : (q - 1) * (2 * half) = q * (2 * half) - 2 * half := by ring
      rw [hq, hodd]
      omega
  case isFalse hloss => omega

/-! ### Rounding an accumulator -/

/-- A bit cleared and shifted to place 0 leaves the even number below. -/
theorem toNat_clearBit_shift {n k : Nat} (hk : k < n) (t : BitVec n) :
    (putBit t k false >>> k).toNat = t.toNat / 2 ^ k - t.toNat / 2 ^ k % 2 := by
  have hhalf : (putBit t k false >>> k) >>> 1 = (t >>> k) >>> 1 := by
    refine BitVec.eq_of_getLsbD_eq fun i _ => ?_
    simp only [BitVec.getLsbD_ushiftRight, Effect.putBit_bit]
    rw [if_neg (by omega)]
  have heven : (putBit t k false >>> k).toNat % 2 = 0 := by
    have hbit : (putBit t k false >>> k).getLsbD 0 = false := by
      rw [BitVec.getLsbD_ushiftRight, Effect.putBit_bit, if_pos ⟨rfl, hk⟩]
    rwa [BitVec.getLsbD, Nat.testBit_zero, decide_eq_false_iff_not, Nat.mod_two_not_eq_one] at hbit
  have hdiv : (putBit t k false >>> k).toNat / 2 = t.toNat / 2 ^ k / 2 := by
    simpa only [BitVec.toNat_ushiftRight _ 1, BitVec.toNat_ushiftRight t, Nat.shiftRight_eq_div_pow, pow_one] using
      congrArg BitVec.toNat hhalf
  omega

/-- A shift left is a product modulo 2^n. -/
theorem shiftLeft_eq_ofInt {n : Nat} (x : BitVec n) (k : Nat) : x <<< k = BitVec.ofInt n (x.toNat * 2 ^ k) := by
  apply BitVec.eq_of_toNat_eq
  rw [BitVec.toNat_shiftLeft, Nat.shiftLeft_eq, BitVec.toNat_ofInt]
  norm_cast

/-- Rounding acts on the sum with the rounding constant as an unsigned number. -/
theorem round56_eq_evenOnTie (m : ScaleMode) (d : AccVal) :
    round56 m d = BitVec.ofInt 56
      (evenOnTie (2 ^ (roundPos m + 1)) (d + BitVec.twoPow 56 (roundPos m)).toNat * 2 ^ (roundPos m + 1)) := by
  have hpos : roundPos m + 1 < 56 := by cases m <;> decide
  simp only [round56]
  generalize d + BitVec.twoPow 56 (roundPos m) = t
  generalize roundPos m + 1 = k at hpos ⊢
  rw [shiftLeft_eq_ofInt]
  congr 2
  rw [evenOnTie]
  by_cases htie : t.toNat % 2 ^ k = 0
  · rw [if_pos htie, if_pos (by exact_mod_cast htie), toNat_clearBit_shift hpos, Nat.cast_sub (Nat.mod_le _ _)]
    norm_cast
  · rw [if_neg htie, if_neg (by exact_mod_cast htie), BitVec.toNat_ushiftRight, Nat.shiftRight_eq_div_pow]
    norm_cast

/-- The sum with the rounding constant as an unsigned number is the exact one but for whole turns of 2^56, which are an
even number of units. -/
theorem add_twoPow_toNat (m : ScaleMode) (d : AccVal) :
    ∃ j : Int, d.toInt + 2 ^ roundPos m =
      (d + BitVec.twoPow 56 (roundPos m)).toNat + 2 ^ (roundPos m + 1) * (2 * (2 ^ (54 - roundPos m) * j)) := by
  have hconst : BitVec.twoPow 56 (roundPos m) = BitVec.ofInt 56 (2 ^ roundPos m) := by cases m <;> rfl
  have hsum : d + BitVec.twoPow 56 (roundPos m) = BitVec.ofInt 56 (d.toInt + 2 ^ roundPos m) := by
    rw [BitVec.ofInt_add, BitVec.ofInt_toInt, hconst]
  have hturn : (2 : Int) ^ (roundPos m + 1) * (2 * 2 ^ (54 - roundPos m)) = 2 ^ 56 := by cases m <;> rfl
  refine ⟨(d.toInt + 2 ^ roundPos m) / 2 ^ 56, ?_⟩
  rw [← mul_assoc 2, ← mul_assoc, hturn, hsum, BitVec.toNat_ofInt]
  omega

/-- Rounding is convergent rounding of the exact value, modulo 2^56. -/
theorem round56_eq_ofInt (m : ScaleMode) (d : AccVal) :
    round56 m d = BitVec.ofInt 56
      (evenOnTie (2 ^ (roundPos m + 1)) (d.toInt + 2 ^ roundPos m) * 2 ^ (roundPos m + 1)) := by
  obtain ⟨j, hj⟩ := add_twoPow_toNat m d
  have hturns : BitVec.ofInt 56 (2 * (2 ^ (54 - roundPos m) * j) * 2 ^ (roundPos m + 1)) = 0 := by
    have hzero : BitVec.ofInt 56 (2 * 2 ^ (54 - roundPos m) * 2 ^ (roundPos m + 1)) = 0 := by cases m <;> rfl
    rw [← mul_assoc, mul_right_comm, BitVec.ofInt_mul, hzero, zero_mul]
  rw [round56_eq_evenOnTie, hj, evenOnTie_add (by positivity), add_mul, BitVec.ofInt_add, hturns, add_zero]

/-- Settles O19: the multiple is the one that convergent rounding of the exact value chooses. -/
theorem roundingIsToNearestEven : Obligations.RoundingIsToNearestEven := by
  intro m d unit
  have hunit : unit = 2 ^ (roundPos m + 1) := by cases m <;> rfl
  rw [hunit]
  refine ⟨_, round56_eq_ofInt m d, ?_⟩
  rw [pow_succ']
  exact evenOnTie_nearest (by positivity) d.toInt

end Sys2Proof.Machine
end

section
/-! ROL and ROR: bits 47:24 rotated through C, whatever the scaling mode, the rest of the accumulator kept
(43_rotate.md R330 to R333, 42_arithmetic.md R290). -/

namespace Sys2Proof.Machine

/-! ### Bits 47:24 of an accumulator (46_data_alu_encoding_only.md R401) -/

/-- Bits 47:24 as they are written. -/
theorem accMid_setMid (v : AccVal) (w : Word) : accMid (setMid v w) = w := accMid_accJoin ..

/-- Writing bits 47:24 keeps bits 55:48. -/
theorem accExt_setMid (v : AccVal) (w : Word) : accExt (setMid v w) = accExt v := accExt_accJoin ..

/-- Writing bits 47:24 keeps bits 23:0. -/
theorem accLow_setMid (v : AccVal) (w : Word) : accLow (setMid v w) = accLow v := accLow_accJoin ..

/-- A bit of bits 47:24 is the accumulator's bit 24 places higher. -/
theorem accMid_bit (v : AccVal) {i : Nat} (hi : i < 24) : (accMid v).getLsbD i = v.getLsbD (24 + i) := by
  rw [accMid, BitVec.getLsbD_extractLsb', decide_eq_true hi, Bool.true_and]

/-- The flags of a 24-bit logical operation, with C computed (43_rotate.md R332). -/
theorem update_logicFlags (k : Ccr) (w : Word) (c : Bool) : k.update (logicFlags w (some c)) = logicCcr k w c := by
  rw [logicCcr, ← Bool.or_false k.l]
  rfl

/-! ### The two rotations as numbers (43_rotate.md R330, R331) -/

/-- Rotated left the word doubles, modulo 2^24, and the bit comes in below. -/
theorem rotateLeft_toNat (w : Word) (c : Bool) :
    (w.extractLsb' 0 23 ++ BitVec.ofBool c).toNat = (2 * w.toNat + c.toNat) % 2 ^ 24 := by
  have hc : c.toNat < 2 := c.toNat_lt
  rw [BitVec.toNat_append, BitVec.toNat_ofBool, ← Nat.shiftLeft_add_eq_or_of_lt (i := 1) hc, Nat.shiftLeft_eq,
    BitVec.extractLsb'_toNat, Nat.shiftRight_zero]
  omega

/-- Rotated right the word halves, and the bit comes in above. -/
theorem rotateRight_toNat (w : Word) (c : Bool) :
    (BitVec.ofBool c ++ w.extractLsb' 1 23).toNat = w.toNat / 2 + c.toNat * 2 ^ 23 := by
  have hw : w.toNat / 2 < 2 ^ 23 := by omega
  have hlow : (w.extractLsb' 1 23).toNat = w.toNat / 2 := by
    rw [BitVec.extractLsb'_toNat, Nat.shiftRight_eq_div_pow, pow_one, Nat.mod_eq_of_lt hw]
  rw [BitVec.toNat_append, BitVec.toNat_ofBool, hlow, ← Nat.shiftLeft_add_eq_or_of_lt hw, Nat.shiftLeft_eq, add_comm]

/-! ### The instructions -/

/-- A rotation beside its move: the word it computes from the old state is written to bits 47:24, and the flags are
that word's. It asks for no scaling mode. -/
theorem parallel_rotate {s u : State} {mv : ParMove} (d : Acc) (f : Word → State → Word) (c : Word → State → Bool)
    (hs : s.srLegal = true) (hu : s.runMove mv = .ok u) :
    ∃ t, parallel (aluRotate d fun w s => (f w s, some (c w s))) mv s = .next t ∧
      aluFrame (some d) (1 + mv.extra) u t ∧ accMid (t.acc d) = f (accMid (s.acc d)) s ∧
      accExt (t.acc d) = accExt (s.acc d) ∧ accLow (t.acc d) = accLow (s.acc d) ∧
      t.ccr = logicCcr u.ccr (accMid (t.acc d)) (c (accMid (s.acc d)) s) := by
  refine ⟨_, (parallel_next _ mv s _).2 ⟨_, u, rfl, hu, rfl⟩, ?_⟩
  rw [midOut, logicOut, putAlu_acc (runMove_srLegal hu hs), update_logicFlags]
  obtain ⟨hframe, hacc⟩ := aluFrame_acc (1 + mv.extra) d (setMid (s.acc d) (f (accMid (s.acc d)) s))
    (logicCcr u.ccr (f (accMid (s.acc d)) s) (c (accMid (s.acc d)) s)) u
  refine ⟨hframe, ?_⟩
  rw [hacc, accMid_setMid, accExt_setMid, accLow_setMid]
  exact ⟨rfl, rfl, rfl, ccr_withResult _ _ _ u⟩

/-- Settles O31: each rotation is one word written to bits 47:24, read as a number, and the bit that leaves it is the
accumulator's bit 47 or bit 24. -/
theorem rotatesGoThroughCarry : Obligations.RotatesGoThroughCarry := by
  intro s u mv d hs hu
  refine ⟨?rol, ?ror⟩
  case rol =>
    obtain ⟨t, ht, hframe, hmid, hext, hlow, hccr⟩ := parallel_rotate d
      (fun w s => w.extractLsb' 0 23 ++ BitVec.ofBool s.ccr.c) (fun w _ => w.getLsbD 23) hs hu
    rw [accMid_bit _ (by omega)] at hccr
    exact ⟨t, ht, hframe, by rw [hmid, rotateLeft_toNat], hext, hlow, hccr⟩
  case ror =>
    obtain ⟨t, ht, hframe, hmid, hext, hlow, hccr⟩ := parallel_rotate d
      (fun w s => BitVec.ofBool s.ccr.c ++ w.extractLsb' 1 23) (fun w _ => w.getLsbD 0) hs hu
    rw [accMid_bit _ (by omega)] at hccr
    exact ⟨t, ht, hframe, by rw [hmid, rotateRight_toNat], hext, hlow, hccr⟩

end Sys2Proof.Machine
end

section
/-! TFR and Tcc: an accumulator or a word copied whole, past the limiter, with no flag of their own
(44_transfer.md R340 to R351). -/

namespace Sys2Proof.Machine

/-! ### An accumulator written, and nothing else -/

section Written
variable (n : Nat) (d : Acc) (r : AccVal) (u : State)

/-- The end of an instruction moves PC, or uses up vector words, whatever an accumulator holds. -/
theorem advance_setAcc : (u.setAcc d r).advance n = { u.advance n with dalu := u.dalu.setAcc d r } := by
  cases hvec : u.vec <;> simp only [State.advance, State.setAcc, hvec, State.setPc]

/-- SR is as it was. -/
theorem advance_setAcc_sr : ((u.setAcc d r).advance n).ctl.sr = u.ctl.sr := advance_sr n (u.setAcc d r)

/-- The accumulator is read back. -/
theorem advance_setAcc_acc : ((u.setAcc d r).advance n).acc d = r := by
  rw [advance_setAcc]
  exact dalu_acc_setAcc u.dalu d r

/-- Everything else is kept, SR too. -/
theorem aluFrame_setAcc : aluFrame (some d) n u ((u.setAcc d r).advance n) := by
  refine ⟨?_, by rw [advance_setAcc_sr]⟩
  simp only [advance_setAcc_acc]
  rw [advance_setAcc]

end Written

/-! ### The instructions -/

/-- A word copied to an accumulator is the fraction in bits 47:24, the sign above it and zeros below (R343). -/
theorem ext24_toInt (w : Word) : (ext24 w).toInt = w.toInt * 2 ^ 24 := by
  rw [ext24, BitVec.toInt_signExtend_of_le (by omega), BitVec.toInt_append]
  simp [mul_comm]

/-- A transfer beside its move: the value is the old state's, and SR is as the move left it (R350, R351). -/
theorem parallel_transfer {s u : State} {m : ScaleMode} {mv : ParMove} (d : Acc) (x : State → AccVal)
    (hm : s.scale = .ok m) (hu : s.runMove mv = .ok u) :
    ∃ t, parallel (aluTfr d x) mv s = .next t ∧ aluFrame (some d) (1 + mv.extra) u t ∧
      t.acc d = x s ∧ t.ctl.sr = u.ctl.sr :=
  ⟨(u.setAcc d (x s)).advance (1 + mv.extra), (parallel_next _ mv s _).2 ⟨_, u, withScale_ok _ hm, hu, rfl⟩,
    aluFrame_setAcc .., advance_setAcc_acc .., advance_setAcc_sr ..⟩

section Conditional
variable {k : Cond} {s : State} (src : TSrc) (d : Acc) (s2 d2 : BitVec 3)

/-- Tcc where its condition fails does nothing (R340). -/
theorem execTcc_of_not (h : condHolds k s.ccr = false) : execTcc k src d s = .next (s.advance 1) := by
  simp [execTcc, h]

/-- With an address register beside it, that is left alone too (R341). -/
theorem execTccR_of_not (h : condHolds k s.ccr = false) : execTccR k src d s2 d2 s = .next (s.advance 1) := by
  simp [execTccR, h]

/-- Tcc where its condition holds writes its source to the accumulator (R340). -/
theorem execTcc_of_holds (h : condHolds k s.ccr = true) :
    execTcc k src d s = .next ((s.setAcc d (tccSource src d s)).advance 1) := by
  simp [execTcc, h]

/-- With an address register beside it, that is copied too (R341). -/
theorem execTccR_of_holds (h : condHolds k s.ccr = true) :
    execTccR k src d s2 d2 s = .next (((s.setAcc d (tccSource src d s)).setR d2 (s.rReg s2)).advance 1) := by
  simp [execTccR, h]

end Conditional

/-- Settles O32: TFR is a transfer that leaves the flags to its move; Tcc copies `tccSource` where its condition
holds. -/
theorem transfersCopyUnlimited : Obligations.TransfersCopyUnlimited := by
  refine ⟨fun s u m mv d hm hu => ⟨?tfrAcc, fun w => ?tfrWord⟩,
    fun s k src d s2 d2 => ⟨fun h => ?fails, fun h => ?holds⟩⟩
  case tfrAcc => exact parallel_transfer d (·.acc d.other) hm hu
  case tfrWord =>
    rw [← ext24_toInt]
    obtain ⟨t, ht, hframe, hacc, hsr⟩ := parallel_transfer d (fun s => ext24 (s.dalu.word w)) hm hu
    exact ⟨t, ht, hframe, congrArg BitVec.toInt hacc, hsr⟩
  case fails => exact ⟨execTcc_of_not src d h, execTccR_of_not src d s2 d2 h⟩
  case holds =>
    refine ⟨tccSource src d s, ?other, ?word, execTcc_of_holds src d h, execTccR_of_holds src d s2 d2 h⟩
    case other =>
      rintro rfl
      rfl
    case word =>
      rintro w rfl
      exact ext24_toInt _

end Sys2Proof.Machine
end

section
/-! ADD, ADC, ADDL, ADDR and SUBL: the exact sum, or the exact difference of the doubled accumulator, modulo 2^56
(46_data_alu_encoding_only.md R403 to R406, 42_arithmetic.md R308 to R312). -/

namespace Sys2Proof.Machine

/-! ### Sums and the shift left, as integers modulo 2^56 (10_state.md R69, R70) -/

/-- The result of an addition is the exact sum modulo 2^56. -/
theorem add56_r (a b : AccVal) (c : Bool) : (add56 a b c).r = BitVec.ofInt 56 (a.toInt + b.toInt + c.toNat) := by
  have hc : (BitVec.ofBool c).setWidth 56 = BitVec.ofInt 56 c.toNat := by cases c <;> rfl
  rw [BitVec.ofInt_add, BitVec.ofInt_add, BitVec.ofInt_toInt, BitVec.ofInt_toInt, ← hc]
  rfl

/-- The shift left doubles, modulo 2^56. -/
theorem asl1_eq_ofInt (a : AccVal) : asl1 a = BitVec.ofInt 56 (2 * a.toInt) := by
  rw [BitVec.ofInt_mul, BitVec.ofInt_toInt, asl1, BitVec.shiftLeft_eq_mul_twoPow, mul_comm]
  rfl

/-! ### The instructions -/

section Additions
variable {s u : State} {m : ScaleMode} {mv : ParMove}

/-- A sum written to an accumulator. -/
theorem parallel_add (d : Acc) (p x : State → AccVal) (c : State → Bool) (hs : s.srLegal = true)
    (hm : s.scale = .ok m) (hu : s.runMove mv = .ok u) :
    ∃ t, parallel (withScale fun m s => sumOut d (add56 (p s) (x s) (c s)) m) mv s = .next t ∧
      aluFrame (some d) (1 + mv.extra) u t ∧
      t.acc d = BitVec.ofInt 56 ((p s).toInt + (x s).toInt + (c s).toNat) ∧
      t.ccr = arithCcr m u.ccr (t.acc d) (overflow56 ((p s).toInt + (x s).toInt + (c s).toNat))
        (decide (2 ^ 56 ≤ (p s).toNat + (x s).toNat + (c s).toNat)) := by
  obtain ⟨t, ht, hframe, hacc, hccr⟩ := parallel_sum d (fun s => add56 (p s) (x s) (c s)) hs hm hu
  exact ⟨t, ht, hframe, hacc.trans (add56_r _ _ _), hccr⟩

/-- SUBL: the result is the exact difference; V and C are those of the subtraction after the shift, V also that of the
shift (42_arithmetic.md R308, R311, R312). -/
theorem execSubl_next (d : Acc) (hs : s.srLegal = true) (hm : s.scale = .ok m) (hu : s.runMove mv = .ok u) :
    ∃ t, execSubl d mv s = .next t ∧ aluFrame (some d) (1 + mv.extra) u t ∧
      t.acc d = BitVec.ofInt 56 (2 * (s.acc d).toInt - (s.acc d.other).toInt) ∧
      t.ccr = arithCcr m u.ccr (t.acc d)
        (overflow56 ((asl1 (s.acc d)).toInt - (s.acc d.other).toInt) || aslV (s.acc d))
        (decide ((asl1 (s.acc d)).toNat < (s.acc d.other).toNat)) := by
  obtain ⟨t, ht, hframe, hacc, hccr⟩ := parallel_sum d
    (fun s => let q := sub56 (asl1 (s.acc d)) (s.acc d.other) false
      { q with v := q.v || aslV (s.acc d) }) hs hm hu
  refine ⟨t, ht, hframe, ?_, ?_⟩
  · rw [ofInt_sub, ← asl1_eq_ofInt, BitVec.ofInt_toInt, hacc]
    exact BitVec.sub_zero _
  · simpa only [sub56, Bool.toNat_false, Nat.cast_zero, sub_zero, Nat.add_zero] using hccr

/-- ADDL: the result is the exact sum; V and C are those of the addition after the shift, V also that of the shift
(46_data_alu_encoding_only.md R405). -/
theorem execAddl_next (d : Acc) (hs : s.srLegal = true) (hm : s.scale = .ok m) (hu : s.runMove mv = .ok u) :
    ∃ t, execAddl d mv s = .next t ∧ aluFrame (some d) (1 + mv.extra) u t ∧
      t.acc d = BitVec.ofInt 56 (2 * (s.acc d).toInt + (s.acc d.other).toInt) ∧
      t.ccr = arithCcr m u.ccr (t.acc d)
        (overflow56 ((asl1 (s.acc d)).toInt + (s.acc d.other).toInt) || aslV (s.acc d))
        (decide (2 ^ 56 ≤ (asl1 (s.acc d)).toNat + (s.acc d.other).toNat)) := by
  obtain ⟨t, ht, hframe, hacc, hccr⟩ := parallel_sum d
    (fun s => let q := add56 (asl1 (s.acc d)) (s.acc d.other) false
      { q with v := q.v || aslV (s.acc d) }) hs hm hu
  refine ⟨t, ht, hframe, ?_, ?_⟩
  · rw [BitVec.ofInt_add, ← asl1_eq_ofInt, BitVec.ofInt_toInt, hacc]
    exact BitVec.add_zero _
  · simpa only [add56, Bool.toNat_false, Nat.cast_zero, add_zero, Nat.add_zero] using hccr

end Additions

/-- Settles O26: ADD, ADC and ADDR are sums of their operand, ADDR of the halved accumulator; ADDL and SUBL double the
accumulator first. -/
theorem additionsAndSublWriteTheResult : Obligations.AdditionsAndSublWriteTheResult := by
  refine ⟨fun s u m mv d i x c hi hs hm hu => ?_, fun s u m mv d hs hm hu => ⟨?subl, ?addl, ?addr⟩⟩
  · rcases hi with ⟨rfl, rfl, rfl⟩ | ⟨l, rfl, rfl, rfl⟩ | ⟨w, rfl, rfl, rfl⟩ | ⟨l, rfl, rfl, rfl⟩
    · exact parallel_add d (·.acc d) (·.acc d.other) (fun _ => false) hs hm hu
    · exact parallel_add d (·.acc d) (fun s => ext48 (s.dalu.long l)) (fun _ => false) hs hm hu
    · exact parallel_add d (·.acc d) (fun s => ext24 (s.dalu.word w)) (fun _ => false) hs hm hu
    · exact parallel_add d (·.acc d) (fun s => ext48 (s.dalu.long l)) (·.ccr.c) hs hm hu
  case subl =>
    rw [← asl1_eq_ofInt]
    exact execSubl_next d hs hm hu
  case addl =>
    rw [← asl1_eq_ofInt]
    exact execAddl_next d hs hm hu
  case addr =>
    have h := parallel_add d (fun s => asr1 (s.acc d)) (·.acc d.other) (fun _ => false) hs hm hu
    simp only [asr1_toInt, Bool.toNat_false, Nat.cast_zero, add_zero] at h
    rw [← asr1_eq_ofInt]
    exact h

end Sys2Proof.Machine
end

section
/-! CMP and CMPM: the flags of a difference of values, or of magnitudes, and nothing written
(46_data_alu_encoding_only.md R410, R411). -/

namespace Sys2Proof.Machine

/-! ### The magnitude of an accumulator (46_data_alu_encoding_only.md R402) -/

/-- Bit 55 is the sign. -/
theorem sign_eq_decide (v : AccVal) : v.getLsbD 55 = decide (v.toInt < 0) :=
  (BitVec.msb_eq_getLsbD_last v).symm.trans BitVec.msb_eq_toInt

/-- A difference from 0 is the negative, modulo 2^56. -/
theorem zero_sub_eq_ofInt (v : AccVal) : 0 - v = BitVec.ofInt 56 (-v.toInt) := by
  rw [BitVec.ofInt_neg, BitVec.ofInt_toInt]
  exact BitVec.zero_sub v

/-- The magnitude of a value is its absolute value. -/
theorem abs56_eq_ofInt (v : AccVal) : abs56 v = BitVec.ofInt 56 v.toInt.natAbs := by
  rw [abs56, sign_eq_decide]
  by_cases hneg : v.toInt < 0
  · rw [if_pos (decide_eq_true hneg), zero_sub_eq_ofInt, Int.ofNat_natAbs_of_nonpos hneg.le]
  · rw [if_neg (by simpa using hneg), Int.natAbs_of_nonneg (not_lt.1 hneg), BitVec.ofInt_toInt]

/-! ### The instructions -/

/-- A comparison sets the flags of the exact difference. -/
theorem parallel_cmp {s u : State} {m : ScaleMode} {mv : ParMove} (p x : State → AccVal) (hs : s.srLegal = true)
    (hm : s.scale = .ok m) (hu : s.runMove mv = .ok u) :
    ∃ t, parallel (withScale fun m s => cmpOut (sub56 (p s) (x s) false) m) mv s = .next t ∧
      aluFrame none (1 + mv.extra) u t ∧
      t.ccr = arithCcr m u.ccr (BitVec.ofInt 56 ((p s).toInt - (x s).toInt)) (overflow56 ((p s).toInt - (x s).toInt))
        (decide ((p s).toNat < (x s).toNat)) := by
  obtain ⟨t, ht, hframe, hccr⟩ := parallel_flags (fun m s =>
    let q := sub56 (p s) (x s) false
    arithFlags m q.r q.v (some q.c)) hs hm hu
  refine ⟨t, ht, hframe, ?_⟩
  rw [hccr, update_arithFlags, sub56_r]
  simp only [sub56, Bool.toNat_false, Nat.cast_zero, sub_zero, Nat.add_zero]

/-- Settles O27: CMP compares the values, CMPM the magnitudes. -/
theorem comparesSetFlagsOnly : Obligations.ComparesSetFlagsOnly := by
  intro s u m mv d i p q hi hs hm hu
  have habs (v : AccVal) : BitVec.ofNat 56 v.toInt.natAbs = abs56 v :=
    (BitVec.ofInt_natCast ..).symm.trans (abs56_eq_ofInt v).symm
  rcases hi with ⟨rfl, rfl, rfl⟩ | ⟨w, rfl, rfl, rfl⟩ | ⟨rfl, rfl, rfl⟩ | ⟨w, rfl, rfl, rfl⟩
  · exact parallel_cmp (·.acc d) (·.acc d.other) hs hm hu
  · exact parallel_cmp (·.acc d) (fun s => ext24 (s.dalu.word w)) hs hm hu
  · rw [habs, habs]
    exact parallel_cmp (fun s => abs56 (s.acc d)) (fun s => abs56 (s.acc d.other)) hs hm hu
  · rw [habs, habs]
    exact parallel_cmp (fun s => abs56 (s.acc d)) (fun s => abs56 (ext24 (s.dalu.word w))) hs hm hu

end Sys2Proof.Machine
end

section
/-! CLR, ABS, NEG, ASL, ASR and RND: one accumulator rewritten with its flags (46_data_alu_encoding_only.md R402,
R408, R409, R412, R416, 42_arithmetic.md R294 to R296). -/

namespace Sys2Proof.Machine

/-- The one value whose negative does not fit in 56 bits. -/
theorem eq_twoPow_sign (v : AccVal) : (v == BitVec.twoPow 56 55) = decide (v.toInt = -2 ^ 55) := by
  have hmin : (BitVec.twoPow 56 55).toInt = -2 ^ 55 := by decide
  rw [Bool.beq_eq_decide_eq, ← hmin]
  exact decide_eq_decide.2 BitVec.toInt_inj.symm

/-- A result that leaves C as it is: the move leaves it too (10_state.md R71, 45_parallel_moves.md R365). -/
theorem parallel_keepC {s u : State} {m : ScaleMode} {mv : ParMove} (d : Acc) (r : ScaleMode → State → AccVal)
    (v : ScaleMode → State → Bool) (hs : s.srLegal = true) (hm : s.scale = .ok m) (hu : s.runMove mv = .ok u) :
    ∃ t, parallel (withScale fun m s => keepC d (r m s) (v m s) m) mv s = .next t ∧
      aluFrame (some d) (1 + mv.extra) u t ∧ t.acc d = r m s ∧
      t.ccr = arithCcr m u.ccr (t.acc d) (v m s) s.ccr.c := by
  obtain ⟨t, ht, hframe, hacc, hccr⟩ := parallel_acc d r (fun m s => arithFlags m (r m s) (v m s) none) hs hm hu
  exact ⟨t, ht, hframe, hacc, by rw [hccr, update_arithFlags_keep, hacc, runMove_carry hu hs]⟩

/-- Settles O29: each instruction writes one accumulator; ABS, NEG and RND keep C, the shifts take it from the bit they
lose. -/
theorem oneOperandArithmetic : Obligations.OneOperandArithmetic := by
  intro s u m mv d hs hm hu
  refine ⟨?clr, ?abs, ?neg, ?asl, ?asr, ?rnd⟩
  case clr =>
    obtain ⟨t, ht, hframe, hacc, hccr⟩ := parallel_acc d (fun _ _ => 0) (fun _ _ =>
      { e := some false, u := some true, n := some false, z := some true, v := some false }) hs hm hu
    refine ⟨t, ht, hframe, hacc, ?_⟩
    rw [hccr, Ccr.update, Option.getD_some, Bool.or_false]
    rfl
  case abs =>
    rw [← abs56_eq_ofInt, ← eq_twoPow_sign]
    exact parallel_keepC d (fun _ s => abs56 (s.acc d)) (fun _ s => s.acc d == BitVec.twoPow 56 55) hs hm hu
  case neg =>
    rw [← zero_sub_eq_ofInt, ← eq_twoPow_sign]
    exact parallel_keepC d (fun _ s => 0 - s.acc d) (fun _ s => s.acc d == BitVec.twoPow 56 55) hs hm hu
  case asl =>
    rw [← asl1_eq_ofInt]
    exact parallel_sum d
      (fun s => { r := asl1 (s.acc d), v := aslV (s.acc d), c := (s.acc d).getLsbD 55 }) hs hm hu
  case asr =>
    obtain ⟨t, ht, hframe, hacc, hccr⟩ := parallel_sum d
      (fun s => { r := asr1 (s.acc d), v := false, c := (s.acc d).getLsbD 0 }) hs hm hu
    exact ⟨t, ht, hframe, by rw [hacc, asr1_toInt], hccr⟩
  case rnd =>
    obtain ⟨t, ht, hframe, hacc, hccr⟩ := parallel_keepC d
      (fun m s => round56 m (s.acc d)) (fun m s => roundV m (s.acc d)) hs hm hu
    exact ⟨t, ht, hframe, hacc, by cases m <;> exact hccr⟩

end Sys2Proof.Machine
end

section
/-! AND, OR, EOR, NOT, LSL and LSR: a 24-bit operation on bits 47:24, the rest of the accumulator kept
(46_data_alu_encoding_only.md R401, R407, R413 to R415, R418, R419). -/

namespace Sys2Proof.Machine

/-- The flags of a 24-bit logical operation that keeps C (46_data_alu_encoding_only.md R401). -/
theorem update_logicFlags_keep (k : Ccr) (w : Word) : k.update (logicFlags w none) = logicCcr k w k.c := by
  rw [logicCcr, ← Bool.or_false k.l]
  rfl

/-- The flags of a 24-bit logical operation, with C kept where it is not computed. -/
theorem update_logicFlags_getD (k : Ccr) (w : Word) (c : Option Bool) :
    k.update (logicFlags w c) = logicCcr k w (c.getD k.c) := by
  cases c with
  | none => exact update_logicFlags_keep k w
  | some c => exact update_logicFlags k w c

/-! ### The instructions -/

/-- A logical operation beside its move: the word it computes from the old state is written to bits 47:24, the flags
are that word's, and C is the old one where the operation gives none. -/
theorem parallel_logic {s u : State} {m : ScaleMode} {mv : ParMove} (d : Acc) (f : Word → State → Word × Option Bool)
    (hs : s.srLegal = true) (hm : s.scale = .ok m) (hu : s.runMove mv = .ok u) :
    ∃ t, parallel (aluLogic d f) mv s = .next t ∧ aluFrame (some d) (1 + mv.extra) u t ∧
      accMid (t.acc d) = (f (accMid (s.acc d)) s).1 ∧ accExt (t.acc d) = accExt (s.acc d) ∧
      accLow (t.acc d) = accLow (s.acc d) ∧
      t.ccr = logicCcr u.ccr (f (accMid (s.acc d)) s).1 ((f (accMid (s.acc d)) s).2.getD s.ccr.c) := by
  obtain ⟨t, ht, hframe, hacc, hccr⟩ := parallel_acc d (fun _ s => setMid (s.acc d) (f (accMid (s.acc d)) s).1)
    (fun _ s => logicFlags (f (accMid (s.acc d)) s).1 (f (accMid (s.acc d)) s).2) hs hm hu
  refine ⟨t, ht, hframe, ?_⟩
  rw [hacc, accMid_setMid, accExt_setMid, accLow_setMid, hccr, update_logicFlags_getD, runMove_carry hu hs]
  exact ⟨rfl, rfl, rfl, rfl⟩

/-- Inverting a word subtracts it from the greatest one. -/
theorem not_eq_ofNat (w : Word) : ~~~w = BitVec.ofNat 24 (2 ^ 24 - 1 - w.toNat) := by
  rw [← BitVec.toNat_not, BitVec.ofNat_toNat, BitVec.setWidth_eq]

/-- A word shifted left doubles, modulo 2^24. -/
theorem shiftLeft_one_eq_ofNat (w : Word) : w <<< 1 = BitVec.ofNat 24 (2 * w.toNat) := by
  rw [shiftLeft_eq_ofInt, mul_comm]
  exact_mod_cast BitVec.ofInt_natCast 24 (2 * w.toNat)

/-- A word shifted right halves. -/
theorem shiftRight_one_eq_ofNat (w : Word) : w >>> 1 = BitVec.ofNat 24 (w.toNat / 2) := by
  rw [← pow_one 2, ← Nat.shiftRight_eq_div_pow, ← BitVec.toNat_ushiftRight, BitVec.ofNat_toNat, BitVec.setWidth_eq]

/-- Settles O30: each instruction is one word written to bits 47:24; the shifts take C from the bit they lose, which is
the accumulator's bit 47 or bit 24. -/
theorem logicWorksOnTheMiddleWord : Obligations.LogicWorksOnTheMiddleWord := by
  intro s u m mv d i r c hi hs hm hu
  rcases hi with ⟨w, rfl, rfl, rfl⟩ | ⟨w, rfl, rfl, rfl⟩ | ⟨w, rfl, rfl, rfl⟩ | ⟨rfl, rfl, rfl⟩ | ⟨rfl, rfl, rfl⟩ |
    ⟨rfl, rfl, rfl⟩
  · exact parallel_logic d (fun v s => (v &&& s.dalu.word w, none)) hs hm hu
  · exact parallel_logic d (fun v s => (v ||| s.dalu.word w, none)) hs hm hu
  · exact parallel_logic d (fun v s => (v ^^^ s.dalu.word w, none)) hs hm hu
  · rw [← not_eq_ofNat]
    exact parallel_logic d (fun v _ => (~~~v, none)) hs hm hu
  · rw [← shiftLeft_one_eq_ofNat, ← accMid_bit (i := 23) _ (by omega)]
    exact parallel_logic d (fun v _ => (v <<< 1, some (v.getLsbD 23))) hs hm hu
  · rw [← shiftRight_one_eq_ofNat, ← accMid_bit (i := 0) _ (by omega)]
    exact parallel_logic d (fun v _ => (v >>> 1, some (v.getLsbD 0))) hs hm hu

end Sys2Proof.Machine
end

section
/-! MPY, MPYR, MAC and MACR: the doubled signed product, alone or added to the accumulator, rounded or not
(46_data_alu_encoding_only.md R420 to R424). -/

namespace Sys2Proof.Machine

/-! ### The doubled product as an integer (46_data_alu_encoding_only.md R420) -/

/-- The doubled product of two signed words, negated where the sign bit says so. -/
def exactProduct (neg : Bool) (f : Word × Word) : Int := (if neg then -1 else 1) * (2 * (f.1.toInt * f.2.toInt))

/-- Two signed words give at most 2^47, which both $800000 give. -/
theorem exactProduct_bounds (neg : Bool) (f : Word × Word) :
    -2 ^ 47 ≤ exactProduct neg f ∧ exactProduct neg f ≤ 2 ^ 47 := by
  have hword (w : Word) : |w.toInt| ≤ 2 ^ 23 := abs_le.2 ⟨BitVec.le_toInt w, BitVec.toInt_lt.le⟩
  have hprod : |f.1.toInt * f.2.toInt| ≤ 2 ^ 46 := by
    rw [abs_mul]
    exact mul_le_mul (hword f.1) (hword f.2) (abs_nonneg _) (by norm_num)
  obtain ⟨hlow, hhigh⟩ := abs_le.1 hprod
  cases neg with
  | false =>
    rw [exactProduct, if_neg Bool.false_ne_true]
    omega
  | true =>
    rw [exactProduct, if_pos rfl]
    omega

/-- The product of the model is the exact one modulo 2^56. -/
theorem product_eq_ofInt (neg : Bool) (f : Word × Word) : product neg f = BitVec.ofInt 56 (exactProduct neg f) := by
  cases neg with
  | false => exact congrArg (BitVec.ofInt 56) (one_mul _).symm
  | true =>
    rw [exactProduct, if_pos rfl, neg_one_mul, BitVec.ofInt_neg]
    exact BitVec.zero_sub _

/-- It is the exact one: the doubled product fits in 56 bits. -/
theorem product_toInt (neg : Bool) (f : Word × Word) : (product neg f).toInt = exactProduct neg f := by
  obtain ⟨hlow, hhigh⟩ := exactProduct_bounds neg f
  rw [product_eq_ofInt, BitVec.toInt_ofInt_eq_self (by omega) (by omega) (by omega)]

/-- Rounding a product never overflows: it is far from the ends of 56 bits. -/
theorem roundV_product (m : ScaleMode) (neg : Bool) (f : Word × Word) : roundV m (product neg f) = false := by
  obtain ⟨hlow, hhigh⟩ := exactProduct_bounds neg f
  rw [roundV, product_toInt, overflow56, decide_eq_false_iff_not]
  cases m <;> simp only [roundPos] <;> omega

/-! ### The instructions -/

/-- Settles O33: the product is exact, so MPYR's rounding does not overflow; MAC and MACR add it to the accumulator. -/
theorem multipliesFollowTheProduct : Obligations.MultipliesFollowTheProduct := by
  intro s u m mv d q neg hs hm hu f p sum
  have hp : (s.product neg q).toInt = p := product_toInt neg f
  have hofInt : s.product neg q = BitVec.ofInt 56 p := product_eq_ofInt neg f
  have hr : (add56 (s.acc d) (s.product neg q) false).r = BitVec.ofInt 56 sum := by
    rw [add56_r, hp]
    exact congrArg (BitVec.ofInt 56) (add_zero sum)
  have hv : (add56 (s.acc d) (s.product neg q) false).v = overflow56 sum := by
    rw [add56, hp]
    exact congrArg overflow56 (add_zero sum)
  refine ⟨?mpy, ?mpyr, ?mac, ?macr⟩
  case mpy =>
    obtain ⟨t, ht, hframe, hacc, hccr⟩ :=
      parallel_keepC d (fun _ s => s.product neg q) (fun _ _ => false) hs hm hu
    exact ⟨t, ht, hframe, by rw [hacc, hp], hccr⟩
  case mpyr =>
    have hround : roundV m (s.product neg q) = false := roundV_product m neg f
    rw [← hofInt, ← hround]
    exact parallel_keepC d (fun m s => round56 m (s.product neg q)) (fun m s => roundV m (s.product neg q)) hs hm hu
  case mac =>
    rw [← hr, ← hv]
    exact parallel_keepC d (fun _ s => (add56 (s.acc d) (s.product neg q) false).r)
      (fun _ s => (add56 (s.acc d) (s.product neg q) false).v) hs hm hu
  case macr =>
    rw [← hr, ← hv]
    exact parallel_keepC d (fun m s => round56 m (add56 (s.acc d) (s.product neg q) false).r)
      (fun m s => (add56 (s.acc d) (s.product neg q) false).v ||
        roundV m (add56 (s.acc d) (s.product neg q) false).r) hs hm hu

end Sys2Proof.Machine
end

section
/-! The proofs from here on are elaborated one after another: side by side, their threads' heaps take the compile of
the whole text to its memory limit. -/

set_option Elab.async false

section
/-! The words of 30_encoding.md: those written out from its figures, and the multiplies by a power of two, whose pattern
is decoded and then refused (47_nonparallel_encoding_only.md R472). -/

namespace Sys2Proof

/-- Settles O2: each word is a closed computation of the decoder. -/
theorem wordsOfTheSpecDecode : Obligations.WordsOfTheSpecDecode := by
  unfold Obligations.WordsOfTheSpecDecode
  and_intros
  all_goals decide

/-! ### The multiplies by a power of two (R203, R472) -/

/-- The bytes of a word stand side by side. -/
theorem join24_eq_append (h m l : BitVec 8) : join24 h m l = h ++ m ++ l := by
  refine BitVec.eq_of_toNat_eq ?_
  have hh := h.isLt
  have hm := m.isLt
  have hl := l.isLt
  rw [join24, BitVec.toNat_append, BitVec.toNat_append, ← Nat.shiftLeft_add_eq_or_of_lt hm,
    ← Nat.shiftLeft_add_eq_or_of_lt hl, Nat.shiftLeft_eq, Nat.shiftLeft_eq, BitVec.toNat_ofNat]
  omega

/-- The pattern's fields, cut at the byte limits. -/
theorem multiply_word (sh : BitVec 5) (qq : BitVec 2) (d neg : BitVec 1) (op : BitVec 2) :
    0b00000001000#11 ++ sh ++ 0b11#2 ++ qq ++ d ++ neg ++ op =
      join24 0x01 (0#3 ++ sh) (0b11#2 ++ qq ++ d ++ neg ++ op) := by
  rw [join24_eq_append]
  refine BitVec.eq_of_getLsbD_eq fun i hi => ?_
  simp only [BitVec.getLsbD_append]
  interval_cases i <;> simp

/-- Settles O34: the pattern is what `encode` writes, so it decodes; the instructions it gives are refused. -/
theorem powerOfTwoMultipliesAreRefused : Obligations.PowerOfTwoMultipliesAreRefused := by
  intro s neg qq d sh x word
  have decoded {op : BitVec 2} {i : Instr} (hi : i.wf)
      (henc : encode i = (join24 0x01 (0#3 ++ sh) (0b11#2 ++ qq ++ encAcc d ++ bit1 neg ++ op), none)) :
      word op = .ok i := by
    have h := decodeOfEncodeIsTheInstruction i x hi
    rw [henc] at h
    exact (congrArg (decode · x) (multiply_word sh qq (encAcc d) (bit1 neg) op)).trans h
  refine ⟨⟨decoded rfl rfl, decoded rfl rfl, decoded rfl rfl, decoded rfl rfl⟩, fun i hi => ?_⟩
  simp only [List.mem_cons, List.not_mem_nil, or_false] at hi
  rcases hi with rfl | rfl | rfl | rfl <;> exact ⟨rfl, rfl⟩

end Sys2Proof
end

section
/-! What the step adds to an instruction's own effect: the marks, the trace exception, and the end of a DO loop or of a
vector (47_nonparallel_encoding_only.md R462, 60_exceptions.md R506, R509, 70_reset_and_hazards.md R566). -/

namespace Sys2Proof.Machine

/-! ### Requests -/

/-- A request raises its own source and keeps the others (60_exceptions.md R504). -/
theorem isPending_pend (q q' : Source) (s : State) : (s.pend q).isPending q' = (s.isPending q' || q' == q) := by
  rw [pending_pend]
  by_cases h : q' = q <;> simp [h]

section Retire
variable {i : Instr} {s t : State}

/-! ### Trace (60_exceptions.md R506) -/

/-- Trace changes the pending flags alone. -/
theorem traced_state (s t : State) : s.traced t = { t with pending := (s.traced t).pending } := by
  rw [State.traced]
  split <;> rfl

/-- Outside a repeat, T raises the trace exception. -/
theorem isPending_traced (hrep : s.rep.repeating = false) (t : State) (q : Source) :
    (s.traced t).isPending q = (t.isPending q || (s.tr && q == .trace)) := by
  cases htr : s.tr with
  | false => simp only [State.traced, htr, Bool.false_and, Bool.false_eq_true, if_false, Bool.or_false]
  | true =>
    simp only [State.traced, htr, hrep, Bool.not_false, Bool.and_self, if_true, isPending_pend, Bool.true_and]

/-- With T = 0 nothing is raised. -/
theorem traced_of_not_tr (htr : s.tr = false) (t : State) : s.traced t = t := by
  simp only [State.traced, htr, Bool.false_and, Bool.false_eq_true, if_false]

/-! ### What follows an instruction outside a repeat -/

/-- When the end of a loop follows an instruction (47_nonparallel_encoding_only.md R462). -/
theorem loopEnds_iff {n : Nat} : loopEnds n s t = true ↔ s.vec = none ∧ t.rep.repeating = false ∧ s.lf = true ∧
    t.lf = true ∧ t.ctl.la = s.ctl.la ∧ s.ctl.pc + BitVec.ofNat 16 (n - 1) = s.ctl.la := by
  simp [loopEnds, and_assoc]

/-- The conditions of a loop's end read nothing that the marks or trace change. -/
theorem loopEnds_traced_mark (n : Nat) (i : Instr) (s t : State) :
    loopEnds n s (s.traced (State.mark i s t)) = loopEnds n s t := by
  rw [traced_state]
  rfl

/-- Where a loop's pass ends. -/
theorem retire_loopEnd (hrep : s.rep.repeating = false) (h : loopEnds i.words s t = true) :
    retire i s t = (s.traced (State.mark i s t)).loopEnd := by
  simp only [retire, hrep, Bool.false_eq_true, if_false, loopEnds_traced_mark, h, if_true]

/-- Where no loop's pass ends. -/
theorem retire_endVector (hrep : s.rep.repeating = false) (h : loopEnds i.words s t = false) :
    retire i s t = (s.traced (State.mark i s t)).endVector := by
  simp only [retire, hrep, Bool.false_eq_true, if_false, loopEnds_traced_mark, h]

/-- A ready step is its instruction and what follows it. -/
theorem step_ready_next (hs : s.ready = true) (hi : decode (s.peek .p s.ctl.pc) (s.peek .p (s.ctl.pc + 1)) = .ok i)
    (hz : hazard i s = none) (ht : exec i s = .next t) : step s = .next (retire i s t) :=
  ((stepRunsTheDecodedInstruction.1 s i hs hi).2 hz).1 t ht

end Retire

/-- Settles O6: no loop's pass ends (`loopEnds_iff`) and no vector is in progress, so the marks and trace are all that
`retire` adds. -/
theorem stepAddsMarksAndTrace : Obligations.StepAddsMarksAndTrace := by
  intro s t i hs hi hz ht hend
  obtain ⟨hvec, hrep, -⟩ := s.ready_iff.1 hs
  obtain ⟨-, -, -, -, -, -, hout, -⟩ := hiddenStateFrame i s t ht
  have hloop : loopEnds i.words s t = false := by
    refine Bool.eq_false_iff.2 fun h => ?_
    obtain ⟨-, -, hlf, hlf', hla, hpc⟩ := loopEnds_iff.1 h
    simp [hlf, hlf', hla, hpc] at hend
  have hretire : retire i s t = s.traced (State.mark i s t) := by
    rw [retire_endVector hrep hloop, endVector_none]
    rw [traced_state]
    exact hout hvec
  refine ⟨retire i s t, step_ready_next hs hi hz ht, ?_, fun q => ?_⟩
  · rw [hretire]
    exact traced_state s (State.mark i s t)
  · rw [hretire]
    exact isPending_traced hrep _ q

/-! ### The RESET pin (70_reset_and_hazards.md R560) -/

theorem isPending_hardReset (q : Source) (s : State) : s.hardReset.isPending q = false :=
  Vector.getElem_replicate q.idx.isLt

theorem mReg_hardReset (k : BitVec 3) (s : State) : s.hardReset.mReg k = 0xFFFF :=
  Vector.getElem_replicate k.isLt

/-- Settles O10: the pin's step is `hardReset`, and the step that finds it released is `release`. -/
theorem resetPinResetsTheCore : Obligations.ResetPinResetsTheCore := by
  intro s rest hinbox
  have hstep : step s = .next (s.withRest rest).hardReset := step_resetPin (by simp) hinbox
  refine ⟨_, hstep, rfl, rfl, rfl, (isPending_hardReset · _), rfl, rfl, rfl, rfl, rfl, (mReg_hardReset · _), rfl, rfl,
    rfl, rfl, rfl, rfl, rfl, rfl, rfl, rfl, rfl, rfl, fun hrest => ?_⟩
  have hnext : step (s.withRest rest).hardReset = .next (s.withRest rest).hardReset.release := by
    rw [step_inbox_nil hrest, runState_reset_released rfl]
  exact ⟨_, hnext, rfl, rfl, rfl⟩

end Sys2Proof.Machine
end

section
/-! DO, ENDDO and the end of a loop's pass: the loop's two stack locations (47_nonparallel_encoding_only.md R462,
R464). -/

namespace Sys2Proof.Machine

section Loops
variable {s t u : State}

/-! ### The loop flag (10_state.md R44) -/

/-- Every part has LF. -/
theorem srMask_loopFlag (p : Platform) : p.srMask.getLsbD 15 = true := by
  simp only [Platform.srMask]
  cases p.hasSBit <;> cases p.hasDmBit <;> rfl

theorem lf_setLf (b : Bool) (s : State) : (s.setLf b).lf = b := by
  rw [State.lf, State.srBit, State.setLf, State.setSr_ctl, BitVec.getLsbD_and, srMask_loopFlag, Bool.and_true,
    Effect.putBit_bit, if_pos ⟨rfl, by decide⟩]

/-- Status registers that agree off some bits are equal there. -/
theorem and_not_eq {a b bits : BitVec 16} (h : ∀ k, bits.getLsbD k = false → a.getLsbD k = b.getLsbD k) :
    a &&& ~~~bits = b &&& ~~~bits := by
  refine BitVec.eq_of_getLsbD_eq fun k hk => ?_
  cases hb : bits.getLsbD k with
  | true => simp [hb]
  | false => simp [h k hb]

/-- Where the status register is legal, LF is all that a write of LF changes of it. -/
theorem setLf_low (b : Bool) (h : s.srLegal = true) : (s.setLf b).ctl.sr &&& 0x7FFF = s.ctl.sr &&& 0x7FFF :=
  and_not_eq ((Effect.setLf b s).status h)

/-! ### Two locations pulled -/

/-- The state with SP at the location below. -/
def State.below (s : State) : State := { s with ctl := { s.ctl with sp := s.ctl.sp - 1 } }

/-- A pull on the stack gives the pair in use and moves SP down. -/
theorem pull_on (h : s.onStack = true) : s.pull = (s.ssPair, s.below) := pull_state h

/-- With SP at location 2 or above, the location below is on the stack too. -/
theorem onStack_below (h2 : 2 ≤ s.ssLoc.toNat) (hon : s.onStack = true) : s.below.onStack = true := by
  simp only [State.onStack, Bool.and_eq_true, decide_eq_true_eq] at hon
  have hloc : s.below.ssLoc.toNat = (s.ssLoc.toNat - 2) + 1 := by
    simp only [State.below, State.ssLoc, BitVec.toNat_setWidth] at h2 ⊢
    bv_omega
  refine onStack_of_loc hloc ?_
  change s.ssLoc.toNat - 2 < s.plat.stackDepth.val
  omega

/-- The loop's two locations pulled, where both are on the stack (R464). -/
theorem leaveLoop_on (h2 : 2 ≤ s.ssLoc.toNat) (hon : s.onStack = true) :
    s.leaveLoop = { s with ctl := { s.ctl with
      sp := s.ctl.sp - 2
      sr := (s.setLf (s.ssPair.2.getLsbD 15)).ctl.sr
      la := s.below.ssPair.1
      lc := s.below.ssPair.2 } } := by
  have hsecond (b : Bool) : (s.below.setLf b).pull = (s.below.ssPair, (s.below.setLf b).below) :=
    pull_on (s := s.below.setLf b) (onStack_below h2 hon)
  have hsp : s.ctl.sp - 1 - 1 = s.ctl.sp - 2 := by bv_omega
  rw [State.leaveLoop, pull_on hon, hsecond, ← hsp]
  rfl

/-- A pass through a loop that ends with LC = 1 leaves it, with PC past LA (R462). -/
theorem loopEnd_last (h : t.ctl.lc = 1) : t.loopEnd = t.leaveLoop.setPc (t.ctl.la + 1) := if_pos h

/-- Any other pass counts LC down and goes back to the loop's first instruction (R462). -/
theorem loopEnd_again (h : t.ctl.lc ≠ 1) (hon : t.onStack = true) :
    t.loopEnd = { t with ctl := { t.ctl with lc := t.ctl.lc - 1, pc := t.ssPair.1 } } := by
  rw [State.loopEnd, if_neg h, ssTop_on hon]

end Loops

/-- Settles O51: the step's `retire` is the end of the loop's pass, on the state with its marks (`retire_loopEnd`). -/
theorem loopEndRepeatsOrLeaves : Obligations.LoopEndRepeatsOrLeaves := by
  intro s t i hs htr hlf hlf' hi hz ht hnorep hflow hla hpc h2 hon
  obtain ⟨hvec, hrep, -⟩ := s.ready_iff.1 hs
  obtain ⟨-, -, -, -, -, hkeep, -⟩ := hiddenStateFrame i s t ht
  have hrep' : t.rep.repeating = false := by rw [hkeep hnorep, hrep]
  have hends : loopEnds i.words s t = true := loopEnds_iff.2 ⟨hvec, hrep', hlf, hlf', hla, hpc⟩
  have hstep : step s = .next (State.mark i s t).loopEnd := by
    rw [step_ready_next hs hi hz ht, retire_loopEnd hrep hends, traced_of_not_tr htr]
  refine ⟨fun hone => ⟨_, hstep, ?_⟩, fun hmore => ⟨_, hstep, ?_⟩⟩
  · rw [loopEnd_last (t := State.mark i s t) hone, leaveLoop_on (s := State.mark i s t) h2 hon, pull_on hon,
      pull_on (onStack_below h2 hon)]
    refine ⟨congrArg (· + 1) hla, rfl, lf_setLf _ t, fun hsr => ?_, rfl, rfl, rfl, rfl, rfl⟩
    exact setLf_low (s := t) _ ((exec_keeps ht).1 hsr)
  · rw [loopEnd_again (t := State.mark i s t) hmore hon]
    refine ⟨?_, rfl, rfl⟩
    rw [ssTop_on hon]
    rfl

end Sys2Proof.Machine
end

section
/-! DO and ENDDO (47_nonparallel_encoding_only.md R462, R464): what the start of a loop and ENDDO leave. -/

namespace Sys2Proof.Machine

section Loops
variable {s t u : State}

/-! ### Pushes beside LC and LA -/

/-- The state with LC and LA replaced. -/
def State.withLoop (count last : Addr) (t : State) : State :=
  { t with ctl := { t.ctl with lc := count, la := last } }

theorem incSp_withLoop (c l : Addr) (t : State) : (t.withLoop c l).incSp = t.incSp.withLoop c l := by
  have hloc : (t.withLoop c l).ssLoc = t.ssLoc := rfl
  rw [State.incSp, State.incSp, hloc]
  split <;> rfl

theorem setSsTop_withLoop (c l : Addr) (v : Addr × Addr) (t : State) :
    (t.withLoop c l).setSsTop v = (t.setSsTop v).withLoop c l := by
  have hon : (t.withLoop c l).onStack = t.onStack := rfl
  rw [State.setSsTop, State.setSsTop, hon]
  split <;> rfl

/-- A push stores the same beside any LC and LA. -/
theorem push_withLoop (c l hi lo : Addr) (t : State) : (t.withLoop c l).push hi lo = (t.push hi lo).withLoop c l := by
  rw [State.push, incSp_withLoop, setSsTop_withLoop]
  rfl

@[simp] theorem push_sp (hi lo : Addr) (t : State) : (t.push hi lo).ctl.sp = t.ctl.sp + 1 :=
  (pushed (hi, lo) t rfl).1

@[simp] theorem push_sr (hi lo : Addr) (t : State) : (t.push hi lo).ctl.sr = t.ctl.sr :=
  congrArg (·.ctl.sr) (setSsTop_incSp_state (hi, lo) t)

@[simp] theorem push_omr (hi lo : Addr) (t : State) : (t.push hi lo).ctl.omr = t.ctl.omr :=
  congrArg (·.ctl.omr) (setSsTop_incSp_state (hi, lo) t)

/-! ### The start of a loop (R462) -/

/-- A loop's start outside a vector: the two pushes, then LC, LA, LF and PC (R462). -/
theorem doStart_state (count last : Addr) (saved : BitVec 16) (hvec : u.vec = none) :
    u.doStart count last saved =
      let p := (u.push u.ctl.la u.ctl.lc).push (u.ctl.pc + 2) saved
      { p with ctl := { p.ctl with lc := count, la := last, pc := u.ctl.pc + 2, sr := (u.setLf true).ctl.sr } } := by
  let first := u.push u.ctl.la u.ctl.lc
  let both := first.push (u.ctl.pc + 2) saved
  have hplace : both.place = u.place := (place_push ..).trans (place_push ..)
  have hpc : both.ctl.pc = u.ctl.pc := congrArg Prod.fst hplace
  have hfirst : first.ctl.pc = u.ctl.pc := congrArg Prod.fst (place_push u.ctl.la u.ctl.lc u)
  have hsr : both.ctl.sr = u.ctl.sr := (push_sr ..).trans (push_sr ..)
  have hplat : both.plat = u.plat := ((Effect.push ..).hidden.2.2.2.1).trans ((Effect.push ..).hidden.2.2.2.1)
  have hv : ((both.withLoop count last).setLf true).vec = none := (congrArg Prod.snd hplace).trans hvec
  change (((first.withLoop count last).push (first.ctl.pc + 2) saved).setLf true).advance 2 = _
  rw [hfirst, push_withLoop, advance_pc 2 hv]
  simp only [State.setLf, State.setSr, State.setPc, State.withLoop]
  rw [hpc, hsr, hplat]
  rfl

/-- What the start of a loop writes, for a count that was read without a change of place, OMR or legality (R462). -/
theorem doStart_starts {i : Instr} (count last : Addr) (hsr : u.srLegal = true) (hvec : s.vec = none)
    (hplace : u.place = s.place) (homr : u.ctl.omr = s.ctl.omr)
    (h : exec i s = .next (u.doStart count last s.ctl.sr)) :
    let pushed := (u.push u.ctl.la u.ctl.lc).push (s.ctl.pc + 2) s.ctl.sr
    ∃ t, exec i s = .next t ∧ t.ctl.lc = count ∧ t.ctl.la = last ∧ t.lf = true ∧
      t.ctl.pc = s.ctl.pc + 2 ∧ t.ctl.sp = u.ctl.sp + 2 ∧ t.ctl.stack = pushed.ctl.stack ∧
      t.ctl.sr &&& 0x7FFF = u.ctl.sr &&& 0x7FFF ∧
      t = { pushed with ctl := t.ctl } ∧ t.ctl.omr = s.ctl.omr := by
  have hpc : u.ctl.pc = s.ctl.pc := congrArg Prod.fst hplace
  have hstate := doStart_state count last s.ctl.sr ((congrArg Prod.snd hplace).trans hvec)
  rw [hpc] at hstate
  refine ⟨_, h, ?_⟩
  rw [hstate]
  refine ⟨rfl, rfl, lf_setLf true u, rfl, ?_, rfl, setLf_low true hsr, rfl, ?_⟩
  · have hsp : u.ctl.sp + 1 + 1 = u.ctl.sp + 2 := by bv_omega
    simp only [push_sp, hsp]
  · simp only [push_omr, homr]

/-- Reading a count leaves OMR. -/
theorem Effect.omr {regs : List Reg} {bits : BitVec 16} (h : Effect regs bits s t) (hr : .c .omr ∉ regs) :
    t.ctl.omr = s.ctl.omr := by
  have hraw : t.ctl.omr.setWidth 56 = s.ctl.omr.setWidth 56 := h.raw _ hr
  bv_omega

/-! The count of each form. -/

theorem exec_doReg {r : Reg} {v : Word} (last : Addr) (h : s.readReg r = .ok (v, u)) :
    exec (.doReg r last) s = .next (u.doStart (v.setWidth 16) last s.ctl.sr) := by
  change beginDo last s.ctl.sr (s.countReg r) = _
  simp only [State.countReg, h, beginDo, countOf]

theorem exec_doEa {sp : DSpace} {j : Ind} {a : Addr} (last : Addr) (h : s.resolveInd j = .ok (a, u)) :
    exec (.doEa sp j last) s =
      .next ((u.loadData sp a).2.doStart ((u.loadData sp a).1.setWidth 16) last s.ctl.sr) := by
  change beginDo last s.ctl.sr (s.countInd sp j) = _
  simp only [State.countInd, h, beginDo, countOf]

theorem exec_doAa (sp : DSpace) (aa : BitVec 6) (last : Addr) (s : State) :
    exec (.doAa sp aa last) s =
      .next (s.doStart ((s.peek sp.toSpace (aa.setWidth 16)).setWidth 16) last s.ctl.sr) := by
  change beginDo last s.ctl.sr (s.countAa sp aa) = _
  simp only [State.countAa, loadData_memory (isIo_shortAddr aa), beginDo, countOf]
  rfl

/-! ### ENDDO (R464) -/

/-- Passing an instruction's words, from a state at the same place in the fetch stream. -/
theorem advance_of_place (n : Nat) (h : u.place = s.place) :
    u.advance n = { u with ctl := { u.ctl with pc := (s.advance n).ctl.pc }, vec := (s.advance n).vec } := by
  have hplace := place_advance_of_place n h
  have hpc : (u.advance n).ctl.pc = (s.advance n).ctl.pc := congrArg Prod.fst hplace
  have hvec : (u.advance n).vec = (s.advance n).vec := congrArg Prod.snd hplace
  rw [← hpc, ← hvec]
  exact advance_state n u

/-- ENDDO pulls the loop's two locations and passes its word (R464). -/
theorem exec_enddo (h2 : 2 ≤ s.ssLoc.toNat) (hon : s.onStack = true) :
    exec .enddo s = .next { s.advance 1 with ctl := { (s.advance 1).ctl with
      sp := s.ctl.sp - 2
      sr := (s.setLf (s.ssPair.2.getLsbD 15)).ctl.sr
      la := s.below.ssPair.1
      lc := s.below.ssPair.2 } } := by
  have hexec : exec .enddo s = .next (s.leaveLoop.advance 1) := rfl
  rw [hexec, advance_of_place 1 (place_leaveLoop s), leaveLoop_on h2 hon, advance_state 1 s]

/-! ### OMR is no register that a count changes -/

theorem omr_not_mem_indSet (j : Ind) : .c .omr ∉ indSet j ++ [] := by
  rcases j with ⟨mode, k⟩
  cases mode <;> simp [indSet]

theorem omr_not_mem_readSet (r : Reg) : .c .omr ∉ readSet r := fun h => by
  have := Effect.readSet_subset r h
  simp [stackRegs] at this

end Loops

/-- Settles O50: each form starts the loop from its count (`doStart_starts`), and ENDDO is the pull of the loop's two
locations (`exec_enddo`). -/
theorem doAndEnddo : Obligations.DoAndEnddo := by
  refine ⟨?_, fun s hsr h2 hon => ?_⟩
  · rintro s u i count last hsr hvec (⟨c, rfl, rfl, rfl⟩ | ⟨r, v, rfl, hread, rfl⟩ |
      ⟨sp, j, a, w, rfl, hw, rfl, rfl⟩ | ⟨sp, aa, rfl, rfl, rfl⟩)
    case inl => exact doStart_starts _ last hsr hvec rfl rfl rfl
    case inr.inl =>
      exact doStart_starts _ last ((Effect.readReg hread).srLegal hsr) hvec (place_readReg hread)
        ((Effect.readReg hread).omr (omr_not_mem_readSet r)) (exec_doReg last hread)
    case inr.inr.inl =>
      have heffect : Effect (indSet j ++ []) (0 ||| 0) s (w.loadData sp a).2 :=
        (Effect.resolveInd hw).seq (Effect.loadData sp a w)
      exact doStart_starts _ last (heffect.srLegal hsr) hvec
        ((place_loadData sp a w).trans (place_resolveInd hw)) (heffect.omr (omr_not_mem_indSet j))
        (exec_doEa last hw)
    case inr.inr.inr => exact doStart_starts _ last hsr hvec rfl rfl (exec_doAa sp aa last u)
  · refine ⟨_, exec_enddo h2 hon, ?_⟩
    rw [pull_on hon, pull_on (onStack_below h2 hon)]
    exact ⟨rfl, rfl, rfl, lf_setLf _ s, setLf_low _ hsr, rfl⟩

end Sys2Proof.Machine
end

section
/-! Levels, masks and arbitration of the interrupt sources (10_state.md R53; 60_exceptions.md R503). -/

namespace Sys2Proof.Machine

section Arbitration
variable {s : State} {q q' : Source} {l : BitVec 2}

/-! ### Levels (10_state.md R53) -/

/-- A field of 0 disables, and any other field gives the level below it. -/
theorem fieldLevel_extract (ipr : BitVec 16) (lo : Nat) :
    (ipr.toNat / 2 ^ lo % 4 = 0 → fieldLevel (ipr.extractLsb' lo 2) = none) ∧
    (∀ k, ipr.toNat / 2 ^ lo % 4 = k + 1 → ∃ l, fieldLevel (ipr.extractLsb' lo 2) = some l ∧ l.toNat = k) := by
  have hfield : (ipr.extractLsb' lo 2).toNat = ipr.toNat / 2 ^ lo % 4 := by
    rw [BitVec.extractLsb'_toNat, Nat.shiftRight_eq_div_pow]
  generalize ipr.extractLsb' lo 2 = f at hfield
  rw [← hfield]
  refine ⟨fun h => if_pos (BitVec.eq_of_toNat_eq h), fun k h => ⟨f - 1, if_neg fun h0 => ?_, ?_⟩⟩
  · simp [h0] at h
  · bv_omega

/-- The field of IPR that a source reads. -/
theorem levelOf_field {lo : Nat}
    (h : q = .irqa ∧ lo = 0 ∨ q = .irqb ∧ lo = 3 ∨ q ∈ [.hostRx, .hostTx, .hostCmd] ∧ lo = 10 ∨
      q ∈ [.ssiRx, .ssiRxExc, .ssiTx, .ssiTxExc] ∧ lo = 12 ∨
      q ∈ [.sciRx, .sciRxExc, .sciTx, .sciIdle, .sciTimer] ∧ lo = 14) :
    s.levelOf q = fieldLevel (s.ipr.extractLsb' lo 2) := by
  simp only [List.mem_cons, List.not_mem_nil, or_false] at h
  rcases h with ⟨rfl, rfl⟩ | ⟨rfl, rfl⟩ | ⟨rfl | rfl | rfl, rfl⟩ | ⟨rfl | rfl | rfl | rfl, rfl⟩ |
    ⟨rfl | rfl | rfl | rfl | rfl, rfl⟩ <;> rfl

/-! ### The mask and the order (R503) -/

theorem imask_toNat (s : State) : s.imask.toNat = s.ctl.sr.toNat / 256 % 4 := by
  rw [State.imask, BitVec.extractLsb'_toNat, Nat.shiftRight_eq_div_pow]

theorem unmasked_iff : s.unmasked q = true ↔
    s.isPending q = true ∧ ∃ l, s.levelOf q = some l ∧ s.ctl.sr.toNat / 256 % 4 ≤ l.toNat := by
  rw [State.unmasked, imask_toNat, Bool.and_eq_true]
  cases s.levelOf q <;> simp

theorem mem_order (q : Source) (s : State) : q ∈ s.order :=
  List.mem_append_right _ (by cases q <;> decide)

/-! ### Arbitration (R503) -/

theorem firstAt_eq_none : s.firstAt l = none ↔ ∀ q, s.unmasked q = true → s.levelOf q ≠ some l := by
  simp only [State.firstAt, Option.map_eq_none_iff, List.find?_eq_none, Bool.and_eq_true, beq_iff_eq, not_and]
  exact ⟨fun h q => h q (mem_order q s), fun h q _ => h q⟩

/-- The source found at a level is unmasked, of that level, and the first such in the order. -/
theorem firstAt_eq_some {k : BitVec 2} (h : s.firstAt l = some (q, k)) :
    k = l ∧ s.unmasked q = true ∧ s.levelOf q = some l ∧
    ∀ q', s.unmasked q' = true → s.levelOf q' = some l → s.order.idxOf q ≤ s.order.idxOf q' := by
  obtain ⟨p, hp, hpair⟩ := Option.map_eq_some_iff.1 h
  obtain ⟨rfl, rfl⟩ := Prod.mk.inj hpair
  obtain ⟨hfound, before, after, horder, hbefore⟩ := List.find?_eq_some_iff_append.1 hp
  simp only [Bool.and_eq_true, beq_iff_eq] at hfound
  have hnot (q' : Source) (hu : s.unmasked q' = true) (hl : s.levelOf q' = some l) : q' ∉ before := fun hmem => by
    simpa [hu, hl] using hbefore q' hmem
  refine ⟨rfl, hfound.1, hfound.2, fun q' hu hl => ?_⟩
  rw [horder, List.idxOf_append_of_notMem (hnot p hfound.1 hfound.2), List.idxOf_append_of_notMem (hnot q' hu hl),
    List.idxOf_cons_self]
  exact Nat.le_add_right ..

theorem level_cases (l : BitVec 2) : l = 3 ∨ l = 2 ∨ l = 1 ∨ l = 0 := by
  revert l
  decide

theorem arbitrate_eq_or (s : State) :
    s.arbitrate = (s.firstAt 3).or ((s.firstAt 2).or ((s.firstAt 1).or (s.firstAt 0))) := by
  rw [State.arbitrate]
  cases s.firstAt 3 <;> cases s.firstAt 2 <;> cases s.firstAt 1 <;> rfl

theorem arbitrate_eq_none : s.arbitrate = none ↔ ∀ l, s.firstAt l = none := by
  simp only [arbitrate_eq_or, Option.or_eq_none_iff]
  refine ⟨fun ⟨h3, h2, h1, h0⟩ l => ?_, fun h => ⟨h 3, h 2, h 1, h 0⟩⟩
  rcases level_cases l with rfl | rfl | rfl | rfl <;> assumption

/-- Arbitration takes its source from the highest level that has one. -/
theorem arbitrate_eq_some (h : s.arbitrate = some (q, l)) :
    s.firstAt l = some (q, l) ∧ ∀ l', l.toNat < l'.toNat → s.firstAt l' = none := by
  have hlevel (k : BitVec 2) (hk : s.firstAt k = some (q, l)) : l = k := (firstAt_eq_some hk).1
  simp only [arbitrate_eq_or, Option.or_eq_some_iff] at h
  rcases h with h3 | ⟨n3, h2 | ⟨n2, h1 | ⟨n1, h0⟩⟩⟩
  · obtain rfl := hlevel 3 h3
    exact ⟨h3, fun l' hl => absurd hl (by bv_omega)⟩
  · obtain rfl := hlevel 2 h2
    refine ⟨h2, fun l' hl => ?_⟩
    obtain rfl : l' = 3 := by bv_omega
    exact n3
  · obtain rfl := hlevel 1 h1
    refine ⟨h1, fun l' hl => ?_⟩
    obtain rfl | rfl : l' = 3 ∨ l' = 2 := by bv_omega
    exacts [n3, n2]
  · obtain rfl := hlevel 0 h0
    refine ⟨h0, fun l' hl => ?_⟩
    obtain rfl | rfl | rfl : l' = 3 ∨ l' = 2 ∨ l' = 1 := by bv_omega
    exacts [n3, n2, n1]

end Arbitration

/-- Settles O54: levels are fields of IPR (`levelOf_field`), and arbitration takes the first source of the highest
level that has one (`arbitrate_eq_some`, `firstAt_eq_some`). -/
theorem arbitrationServesTheHighestLevel : Obligations.ArbitrationServesTheHighestLevel := by
  intro s
  refine ⟨fun q hq => ?_, fun q lo h => ?_, fun q => unmasked_iff, ⟨allSources, rfl⟩, (mem_order · s), ?_, ?_⟩
  · simp only [List.mem_cons, List.not_mem_nil, or_false] at hq
    rcases hq with rfl | rfl | rfl | rfl | rfl <;> rfl
  · rw [levelOf_field h]
    exact fieldLevel_extract s.ipr lo
  · simp only [arbitrate_eq_none, firstAt_eq_none]
    refine ⟨fun h q => Bool.eq_false_iff.2 fun hu => ?_, fun h l q hu => absurd hu (by simp [h q])⟩
    obtain ⟨-, l, hl, -⟩ := unmasked_iff.1 hu
    exact h l q hu hl
  · intro q l h
    obtain ⟨hfirst, habove⟩ := arbitrate_eq_some h
    obtain ⟨-, hu, hl, hleast⟩ := firstAt_eq_some hfirst
    refine ⟨hu, hl, fun q' l' hu' hl' => ?_, hleast⟩
    by_contra hlt
    exact firstAt_eq_none.1 (habove l' (by omega)) q' hu' hl'

end Sys2Proof.Machine
end

section
/-! Long interrupts and their return (60_exceptions.md R510, R512). -/

namespace Sys2Proof.Machine

section LongInterrupt
variable {s : State}

/-! ### The status register of a long interrupt (R510) -/

/-- LF, DM, T, S1 and S0 are cleared. -/
theorem longSr_cleared (level : BitVec 2) (sr : BitVec 16) {k : Nat} (h : k ∈ [15, 14, 13, 11, 10]) :
    (longSr level sr).getLsbD k = false := by
  simp only [List.mem_cons, List.not_mem_nil, or_false] at h
  rcases h with rfl | rfl | rfl | rfl | rfl <;> simp [longSr]

/-- The condition codes are kept. -/
theorem longSr_kept (level : BitVec 2) (sr : BitVec 16) {k : Nat} (h : k < 8) :
    (longSr level sr).getLsbD k = sr.getLsbD k := by
  have hk : k ∈ List.range 8 := List.mem_range.2 h
  fin_cases hk <;> simp [longSr]

/-- Every part has the interrupt mask. -/
theorem srMask_imask (p : Platform) : p.srMask.extractLsb' 8 2 = 3 := by
  simp only [Platform.srMask]
  cases p.hasSBit <;> cases p.hasDmBit <;> decide

/-- The mask becomes the next level, or stays at the highest. -/
theorem longSr_imask (level : BitVec 2) (sr : BitVec 16) :
    (longSr level sr).extractLsb' 8 2 = if level = 3 then 3 else level + 1 := by
  refine BitVec.eq_of_getLsbD_eq fun k hk => ?_
  interval_cases k <;> simp [longSr]

theorem min_succ_level (level : BitVec 2) :
    (if level = 3 then 3 else level + 1 : BitVec 2).toNat = min (level.toNat + 1) 3 := by
  revert level
  decide

/-- Status registers that agree in their low byte have the same condition codes. -/
theorem ccrOf_congr {a b : BitVec 16} (h : ∀ k < 8, a.getLsbD k = b.getLsbD k) : ccrOf a = ccrOf b := by
  have hflag (k : Nat) (hk : k < 8) : a.getLsbD k = b.getLsbD k := h k hk
  rw [ccrOf, ccrOf, hflag 7 (by decide), hflag 6 (by decide), hflag 5 (by decide), hflag 4 (by decide),
    hflag 3 (by decide), hflag 2 (by decide), hflag 1 (by decide), hflag 0 (by decide)]

theorem srLegal_iff : s.srLegal = true ↔ s.ctl.sr &&& s.plat.srMask = s.ctl.sr := beq_iff_eq

/-- A long interrupt's state: the push, the new SR and PC, and the end of the vector; the pair it pushed is the one in
use (R510). -/
theorem longInterrupt_state (v : VecState) (target : Addr) (h : s.ssLoc.toNat < s.plat.stackDepth.val) :
    ∃ (k : _) (t : State), s.longInterrupt v target s.ctl.sr = t ∧
      t = { s with
        ctl := { s.ctl with
          sp := s.ctl.sp + 1, stack := k, pc := target, sr := longSr v.level s.ctl.sr &&& s.plat.srMask }
        vec := none, proc := .normal } ∧
      t.onStack = true ∧ t.ssPair = (s.ctl.pc, s.ctl.sr) := by
  obtain ⟨k, hpush, htop⟩ := push_state s.ctl.pc s.ctl.sr h
  have hon : (s.push s.ctl.pc s.ctl.sr).onStack = true := (onStack_setSsTop ..).trans (onStack_incSp h)
  have hpair : (s.push s.ctl.pc s.ctl.sr).ssPair = (s.ctl.pc, s.ctl.sr) :=
    congrArg Prod.fst ((ssTop_on hon).symm.trans htop)
  refine ⟨k, _, rfl, ?_⟩
  rw [State.longInterrupt]
  rw [hpush] at hon hpair ⊢
  exact ⟨rfl, hon, hpair⟩

/-- RTI where SP is at a stored pair (41_program_control.md R254). -/
theorem exec_rti_on (h : s.onStack = true) :
    exec .rti s = .next { s with ctl := { s.ctl with
      pc := s.ssPair.1, sr := s.ssPair.2 &&& s.plat.srMask, sp := s.ctl.sp - 1 } } := by
  rw [exec_rti, pull_on h]
  rfl

end LongInterrupt

/-- Settles O56: a long interrupt's state is known whole (`longInterrupt_state`), and RTI pulls the pair it pushed. -/
theorem longInterruptsSaveMaskAndReturn : Obligations.LongInterruptsSaveMaskAndReturn := by
  intro s v target hsr hloc
  obtain ⟨k, t, ht, hstate, hon, hpair⟩ := longInterrupt_state v target hloc
  simp only [ht]
  have htsr : t.ctl.sr = longSr v.level s.ctl.sr &&& s.plat.srMask := congrArg (·.ctl.sr) hstate
  have hcleared (j : Nat) (hj : j ∈ [15, 14, 13, 11, 10]) : t.srBit j = false := by
    rw [State.srBit, htsr, BitVec.getLsbD_and, longSr_cleared _ _ hj, Bool.false_and]
  have hmask : t.imask.toNat = min (v.level.toNat + 1) 3 := by
    have hthree (x : BitVec 2) : x &&& 3 = x := by revert x; decide
    rw [State.imask, htsr, BitVec.extractLsb'_and, srMask_imask, longSr_imask, hthree, min_succ_level]
  have hccr : t.ccr = s.ccr := by
    refine ccrOf_congr fun j hj => ?_
    rw [htsr, BitVec.getLsbD_and, longSr_kept v.level s.ctl.sr hj, ← BitVec.getLsbD_and, srLegal_iff.1 hsr]
  refine ⟨?_, ?_⟩
  · refine ⟨?_, (congrArg Prod.fst (ssTop_on hon)).trans hpair, ?_, ?_, ?_, hcleared 15 (by decide),
      hcleared 13 (by decide), hcleared 14 (by decide), hcleared 11 (by decide), hcleared 10 (by decide), hmask, hccr,
      ?_⟩
    all_goals rw [hstate]
    exact ⟨rfl, rfl, rfl, rfl, rfl, rfl, rfl⟩
  · refine ⟨_, exec_rti_on hon, ?_⟩
    rw [hpair, hstate]
    have hsp : s.ctl.sp + 1 - 1 = s.ctl.sp := by bv_omega
    simp only [srLegal_iff.1 hsr, hsp]
    simp

end Sys2Proof.Machine
end

section
/-! The marks of the AGU registers and the delay of address generation (70_reset_and_hazards.md R576, R578). -/

namespace Sys2Proof.Machine

section Marks
variable {i : Instr} {s : State} {q : Reg} {mv : ParMove}

/-! ### What is marked (R578) -/

/-- The registers of the AGU. -/
theorem bind_aguReg_iff {x : Option Reg} :
    x.bind aguReg = some q ↔ (∃ k, q = .r k ∨ q = .n k ∨ q = .m k) ∧ x = some q := by
  cases x with
  | none => simp
  | some p => cases p <;> cases q <;> simp [aguReg]

/-- `parMoveDst` finds the destination of a move field that can be an AGU register. -/
theorem parMoveDst_iff : parMoveDst mv = some q ↔ moveWrites mv q := by
  constructor
  · intro h
    unfold parMoveDst at h
    split at h <;> cases h
    · exact ⟨_, rfl, .inl ⟨_, rfl⟩⟩
    · exact ⟨_, rfl, .inr (.inl ⟨_, rfl⟩)⟩
    · exact ⟨_, rfl, .inr (.inr (.inl ⟨_, rfl⟩))⟩
    · exact ⟨_, rfl, .inr (.inr (.inr (.inr (.inl ⟨_, rfl⟩))))⟩
    · exact ⟨_, rfl, .inr (.inr (.inr (.inl ⟨_, rfl⟩)))⟩
    · exact ⟨_, rfl, .inr (.inr (.inr (.inr (.inr ⟨_, rfl⟩))))⟩
  · rintro ⟨r, rfl, ⟨_, rfl⟩ | ⟨_, rfl⟩ | ⟨_, rfl⟩ | ⟨_, rfl⟩ | ⟨_, rfl⟩ | ⟨_, rfl⟩⟩ <;> rfl

/-- A move that is no MOVEP is marked by its destination. -/
theorem aguMoved_of_movesTo (h : movesTo i q) (hp : ∀ sp pp w r, i ≠ .movepReg sp pp w r) :
    aguMoved i s = (some q).bind aguReg := by
  rcases h with (⟨c, rfl, ⟨_, _, rfl⟩ | ⟨_, _, rfl⟩ | ⟨_, rfl⟩ | ⟨_, rfl⟩⟩ | ⟨_, rfl⟩ | ⟨_, rfl⟩ | ⟨_, rfl⟩ |
    ⟨_, _, rfl⟩)
  case inr.inr.inr.inr => exact (hp _ _ _ _ rfl).elim
  all_goals rfl

/-- Only class P instructions have a move field. -/
theorem aguMoved_of_parallel {d : Option Acc} (h : i.parallel? = some (d, mv)) :
    aguMoved i s = (parMoveDst mv).bind aguReg := by
  unfold aguMoved
  rw [h]

/-- The marked register is the AGU register that the instruction writes as a move. -/
theorem aguMoved_iff : aguMoved i s = some q ↔ marksAgu i s q := by
  constructor
  · intro h
    unfold aguMoved at h
    split at h
    case h_1 d mv hpar =>
      obtain ⟨hagu, hdst⟩ := bind_aguReg_iff.1 h
      exact ⟨hagu, .inl ⟨d, mv, hpar, parMoveDst_iff.1 hdst⟩⟩
    split at h
    case h_1 mm k j _ => cases h; exact ⟨⟨j, .inl rfl⟩, .inr (.inr (.inl ⟨mm, k, j, .inl ⟨rfl, rfl⟩⟩))⟩
    case h_2 mm k j _ => cases h; exact ⟨⟨j, .inr (.inl rfl)⟩, .inr (.inr (.inl ⟨mm, k, j, .inr ⟨rfl, rfl⟩⟩))⟩
    case h_3 c src d s2 d2 _ =>
      split at h
      case isTrue hc => cases h; exact ⟨⟨d2, .inl rfl⟩, .inr (.inr (.inr ⟨c, src, d, s2, d2, rfl, hc, rfl⟩))⟩
      case isFalse => cases h
    case h_4 => cases h
    case h_5 hmovep =>
      obtain ⟨hagu, hdst⟩ := bind_aguReg_iff.1 h
      exact ⟨hagu, .inr (.inl ⟨moveDst_iff.1 hdst, fun sp pp w r hi => hmovep sp pp w r hi⟩)⟩
  · rintro ⟨hagu, ⟨d, mv, hpar, hdst⟩ | ⟨hdst, hmovep⟩ | ⟨mm, k, j, ⟨rfl, rfl⟩ | ⟨rfl, rfl⟩⟩ |
      ⟨c, src, d, s2, d2, rfl, hc, rfl⟩⟩
    · exact (aguMoved_of_parallel hpar).trans (bind_aguReg_iff.2 ⟨hagu, parMoveDst_iff.2 hdst⟩)
    · exact (aguMoved_of_movesTo hdst hmovep).trans (bind_aguReg_iff.2 ⟨hagu, rfl⟩)
    · rfl
    · rfl
    · exact if_pos hc

/-! ### The delay (R576) -/

/-- Where there was no instruction before, the marks of the last one stop nothing. -/
theorem badAfter_none (i : Instr) : badAfter i Prev.none = none := by
  refine Option.eq_none_iff_forall_ne_some.2 fun r h => ?_
  simp [badAfter_iff, marksDo, marksEnddo, marksRti, marksRts, Prev.none] at h

/-- Outside a loop and a vector, with nothing marked of the program controller, the AGU's mark alone decides. -/
theorem hazard_aguOnly (hlf : s.lf = false) (hvec : s.vec = none) (hprev : s.prev = Prev.none)
    (hq : s.aguWritten = some q) :
    hazard i s = if (addrUses i).any (indUses q) then some .aguDelay else none := by
  simp [hazard, atLa_of_not_lf hlf, hvec, hprev, badAfter_none, hq]

end Marks

/-- Settles O60: the marks are those of `aguMoved_iff`, and a marked register stops the next instruction exactly where
one of its operands uses it (`hazard_aguOnly`, `indUses_iff`). -/
theorem aguDelayStops : Obligations.AguDelayStops := by
  refine ⟨fun i s t => ⟨(marks_retire i s t).2, fun q => aguMoved_iff⟩, fun s i j hlf hvec hprev hj => ?_⟩
  have hstops {q : Reg} (hq : s.aguWritten = some q) (huse : indUses q j = true) : hazard i s = some .aguDelay := by
    rw [hazard_aguOnly hlf hvec hprev hq, if_pos (List.any_eq_true.2 ⟨j, hj, huse⟩)]
  have hfree {q : Reg} (hone : addrUses i = [j]) (hq : s.aguWritten = some q) (huse : indUses q j = false) :
      hazard i s = none := by
    rw [hazard_aguOnly hlf hvec hprev hq, hone]
    simp [huse]
  refine ⟨fun hq => hstops hq (indUses_iff.2 (.inl rfl)),
    fun hq hm => hstops hq (indUses_iff.2 (.inr (.inl ⟨rfl, ?_⟩))),
    fun hq hm => hstops hq (indUses_iff.2 (.inr (.inr ⟨rfl, hm⟩))), fun hone hq hm => hfree hone hq ?_,
    fun hone hq hm => hfree hone hq ?_⟩
  · simpa using hm
  · refine Bool.eq_false_iff.2 fun huse => ?_
    rcases hm with hm | hm | hm | hm <;> simp [indUses_iff, hm] at huse
  · exact Bool.eq_false_iff.2 fun huse => by simp [indUses_iff, hm] at huse

end Sys2Proof.Machine
end

section
/-! Servicing an interrupt, and the two words of its vector (60_exceptions.md R504, R508, R509). -/

namespace Sys2Proof.Machine

section Service
variable {s : State} {q q' : Source}

/-! ### Service (R504) -/

theorem idx_inj (h : q.idx = q'.idx) : q = q' := by
  revert h
  cases q <;> cases q' <;> decide

/-- Clearing a source's flag keeps the others. -/
theorem isPending_unpend (q q' : Source) (s : State) : (s.unpend q).isPending q' = (s.isPending q' && q' != q) := by
  by_cases h : q' = q
  · subst h
    simp [State.unpend, State.isPending]
  · have hidx : q.idx.val ≠ q'.idx.val := fun hidx => h (idx_inj (Fin.ext hidx)).symm
    have hkeep : (s.unpend q).isPending q' = s.isPending q' := Vector.getElem_set_ne q.idx.isLt q'.idx.isLt hidx
    simp [hkeep, h]

/-- Service of the source arbitration gives, from the normal state. -/
theorem step_service {l : BitVec 2} (hinbox : s.inbox = []) (hvec : s.vec = none) (hrep : s.rep.repeating = false)
    (hproc : s.proc = .normal ∨ s.proc = .wait) (harb : s.arbitrate = some (q, l)) :
    step s = .next (s.service q l) := by
  rw [step_inbox_nil hinbox]
  rcases hproc with hproc | hproc
  · rw [runState_running (.inl hproc)]
    simp [runCore, hrep, hvec, harb]
  · exact runState_wait_some hproc harb

end Service

/-! ### Where an instruction in a vector leaves it -/

/-- The vector is over, or its words are used up as by an instruction of `n` words. -/
def Follows (n : Nat) (s t : State) : Prop := t.vec = none ∨ t.vec = (s.advance n).vec

namespace Follows
variable {s t u : State} {n : Nat}

theorem of_passes (h : Passes n s t) : Follows n s t := .inr (congrArg Prod.snd h)

theorem of_place (hu : u.place = s.place) (h : Follows n u t) : Follows n s t := by
  have hvec : (u.advance n).vec = (s.advance n).vec := congrArg Prod.snd (place_advance_of_place n hu)
  rwa [Follows, hvec] at h

theorem jumpIf (b : Bool) (target : Addr) : Follows n s (s.jumpIf b n target) := by
  cases b <;> exact .inr rfl

/-- A subroutine jump leaves no vector: outside one there is none, and in one it forms a long interrupt. -/
theorem call {target : Addr} {saved : BitVec 16} (h : s.call n target saved = .ok t) : Follows n s t := by
  unfold State.call at h
  split at h
  · cases h
  injection h with h
  subst h
  split
  next hvec => exact .inl ((congrArg Prod.snd (place_push ..)).trans hvec)
  next => exact .inl rfl

theorem callIf {b : Bool} {target : Addr} {saved : BitVec 16} (h : s.callIf b n target saved = .ok t) :
    Follows n s t := by
  cases b with
  | false =>
    cases h
    exact .inr rfl
  | true => exact call h

theorem endJump {r : Except Fault State} (hr : ∀ u, r = .ok u → Follows n s u) (h : endJump r = .next t) :
    Follows n s t := by
  cases r with
  | error f => cases h
  | ok u =>
    cases h
    exact hr _ rfl

theorem jumpEa {ea : Ea} (h : execJmpEa ea s = .next t) : Follows (1 + ea.extra) s t := by
  refine endJump (fun u hu => ?_) h
  split at hu
  · cases hu
  next a w hw =>
  cases hu
  exact of_place (place_resolve hw) (jumpIf true a)

theorem jumpIfEa {k : Cond} {ea : Ea} (h : execJccEa k ea s = .next t) : Follows (1 + ea.extra) s t := by
  refine endJump (fun u hu => ?_) h
  split at hu
  · cases hu
  next a w hw =>
  cases hu
  exact of_place (place_resolve hw) (jumpIf _ a)

theorem callEa {ea : Ea} (h : execJsrEa ea s = .next t) : Follows (1 + ea.extra) s t := by
  refine endJump (fun u hu => ?_) h
  split at hu
  · cases hu
  next a w hw => exact of_place (place_resolve hw) (call hu)

theorem callIfEa {k : Cond} {ea : Ea} (h : execJsccEa k ea s = .next t) : Follows (1 + ea.extra) s t := by
  refine endJump (fun u hu => ?_) h
  split at hu
  · cases hu
  next a w hw => exact of_place (place_resolve hw) (callIf hu)

theorem bitJump {want : Bool} {target : Addr} {b : Except Fault (Bool × State)}
    (hb : ∀ v u, b = .ok (v, u) → u.place = s.place) (h : bitJump want target b = .next t) : Follows 2 s t := by
  rcases b with f | ⟨v, u⟩
  · cases h
  · cases h
    exact of_place (hb v u rfl) (jumpIf _ target)

theorem bitCall {want : Bool} {target : Addr} {saved : BitVec 16} {b : Except Fault (Bool × State)}
    (hb : ∀ v u, b = .ok (v, u) → u.place = s.place) (h : bitCall want target saved b = .next t) :
    Follows 2 s t := by
  rcases b with f | ⟨v, u⟩
  · cases h
  · exact endJump (fun w hw => of_place (hb v u rfl) (callIf hw)) h

end Follows

section Bits
variable {s t : State} {n : BitVec 5} {v : Bool}

theorem place_bitAt {sp : DSpace} {a : Addr} (h : (.ok (s.bitAt sp a n) : Except Fault _) = .ok (v, t)) :
    t.place = s.place := by
  injection h with h
  have ht : (s.loadData sp a).2 = t := congrArg Prod.snd h
  exact ht ▸ place_loadData sp a s

theorem place_bitInd {sp : DSpace} {j : Ind} (h : s.bitInd sp j n = .ok (v, t)) : t.place = s.place := by
  unfold State.bitInd at h
  split at h
  · cases h
  next a u hu => exact (place_bitAt h).trans (place_resolveInd hu)

theorem place_bitOfReg {r : Reg} (h : s.bitOfReg r n = .ok (v, t)) : t.place = s.place := by
  unfold State.bitOfReg at h
  split at h
  · cases h
  next w u hu =>
  cases h
  exact place_readBitReg hu

end Bits

/-- Every instruction but the returns uses up its words of the vector, or leaves the vector (R508, R509). -/
theorem exec_follows {i : Instr} {s t : State} (hret : i ≠ .rti ∧ i ≠ .rts) (h : exec i s = .next t) :
    Follows i.words s t := by
  cases hflow : changesFlow i with
  | false => exact .of_passes (exec_passes hflow h)
  | true =>
    cases i with
    | jsccShort k a => exact .endJump (fun _ => .callIf) h
    | jsrShort a => exact .endJump (fun _ => .call) h
    | jccShort k a =>
      cases h
      exact .jumpIf ..
    | jmpShort a =>
      cases h
      exact .jumpIf true _
    | jsccEa k ea => exact .callIfEa h
    | jsrEa ea => exact .callEa h
    | jccEa k ea => exact .jumpIfEa h
    | jmpEa ea => exact .jumpEa h
    | rti => exact absurd rfl hret.1
    | rts => exact absurd rfl hret.2
    | jssetPp | jssetAa | jsclrPp | jsclrAa => exact .bitCall (fun _ _ => place_bitAt) h
    | jssetEa | jsclrEa => exact .bitCall (fun _ _ => place_bitInd) h
    | jssetReg | jsclrReg => exact .bitCall (fun _ _ => place_bitOfReg) h
    | jsetPp | jsetAa | jclrPp | jclrAa => exact .bitJump (fun _ _ => place_bitAt) h
    | jsetEa | jclrEa => exact .bitJump (fun _ _ => place_bitInd) h
    | jsetReg | jclrReg => exact .bitJump (fun _ _ => place_bitOfReg) h
    | _ => cases hflow

/-! ### The two words of a vector (R508, R509) -/

section Vector
variable {i : Instr} {s t : State} {v : VecState}

/-- The words of a vector are fetched at its address, the word after the second at PC. -/
theorem runNext_vector (hvec : s.vec = some v)
    (h : v.slot = 0 ∧ decode (s.peek .p v.addr) (s.peek .p (v.addr + 1)) = .ok i ∨
      v.slot = 1 ∧ decode (s.peek .p (v.addr + 1)) (s.peek .p s.ctl.pc) = .ok i) :
    runNext s = if v.slot = 1 ∧ i.words = 2 then .fault .vectorSecondWord else issue i s := by
  have hfetch : decode s.fetched.1 s.fetched.2 = .ok i := by
    rw [State.fetched, State.fetchAddrs, hvec]
    rcases h with ⟨hslot, hi⟩ | ⟨hslot, hi⟩
    · simpa only [hslot, if_true] using hi
    · have hne : v.slot ≠ 0 := by simp [hslot]
      simpa only [if_neg hne] using hi
  have hsecond : s.secondSlot = decide (v.slot = 1) := by
    rw [State.secondSlot, hvec]
    rcases h with ⟨hslot, -⟩ | ⟨hslot, -⟩ <;> simp [hslot]
  rw [runNext, hfetch, hsecond]
  simp

/-- In a vector the step runs the vector's word. -/
theorem step_vector (hproc : s.proc = .exception ∨ s.proc = .normal) (hinbox : s.inbox = [])
    (hrep : s.rep.repeating = false) (hvec : s.vec = some v) : step s = runNext s := by
  rw [step_inbox_nil hinbox, runState_running hproc.symm]
  simp [runCore, hrep, hvec]

/-- With T = 0 only the marks and the end of the vector follow an instruction in a vector. -/
theorem retire_vector (hvec : s.vec = some v) (hrep : s.rep.repeating = false) (htr : s.tr = false) :
    retire i s t = (State.mark i s t).endVector := by
  have hloop : loopEnds i.words s t = false := by simp [loopEnds, hvec]
  rw [retire_endVector hrep hloop, traced_of_not_tr htr]

theorem endVector_frame (t : State) :
    t.endVector = { t with vec := t.endVector.vec, proc := t.endVector.proc } := by
  unfold State.endVector
  split
  · rfl
  · split <;> rfl

theorem endVector_used {w : VecState} (hvec : t.vec = some w) (h : w.slot = 2 ∨ w.slot = 3) :
    t.endVector = { t with vec := none, proc := if t.proc = .exception then .normal else t.proc } := by
  rw [State.endVector, hvec]
  exact if_pos h

theorem endVector_more {w : VecState} (hvec : t.vec = some w) (h : w.slot ≠ 2 ∧ w.slot ≠ 3) : t.endVector = t := by
  rw [State.endVector, hvec]
  exact if_neg (not_or.2 h)

theorem advance_vec (n : Nat) (hvec : s.vec = some v) :
    (s.advance n).vec = some { v with slot := v.slot + BitVec.ofNat 2 n } := by
  rw [State.advance, hvec]

theorem advance_pc_vector (n : Nat) (hvec : s.vec = some v) : (s.advance n).ctl.pc = s.ctl.pc := by
  rw [State.advance, hvec]

/-- An instruction whose checks pass in a vector is no return (70_reset_and_hazards.md R579). -/
theorem not_return_of_vector (hvec : s.vec = some v) (hz : hazard i s = none) : i ≠ .rti ∧ i ≠ .rts := by
  refine ⟨fun hi => ?_, fun hi => ?_⟩
  all_goals
    obtain ⟨⟨r, hr⟩, -⟩ := hazard_inVector (i := i) hvec (by rw [hi]; rfl)
    simp [hr] at hz

/-- Where an instruction that keeps to its vector leaves it. -/
theorem exec_vec (hvec : s.vec = some v) (hkeep : changesFlow i = false ∨ t.vec ≠ none) (hz : hazard i s = none)
    (ht : exec i s = .next t) : t.vec = some { v with slot := v.slot + BitVec.ofNat 2 i.words } := by
  rw [← advance_vec i.words hvec]
  rcases hkeep with hflow | hsome
  · exact congrArg Prod.snd (exec_passes hflow ht)
  · exact (exec_follows (not_return_of_vector hvec hz) ht).resolve_left hsome

end Vector

/-- Settles O55: arbitration's source is served (`step_service`), and an instruction in a vector uses up its words
(`exec_vec`), after which the vector goes on (`endVector_more`) or is over (`endVector_used`). -/
theorem serviceAndFastInterrupts : Obligations.ServiceAndFastInterrupts := by
  refine ⟨fun s q l hinbox hvec hrep hproc harb => ?_, fun s v i hproc hinbox hrep hvec htr hdecode => ?_⟩
  · exact ⟨_, _, step_service hinbox hvec hrep hproc harb, rfl, rfl, rfl, rfl, rfl, rfl,
      fun q' => isPending_unpend q q' s, rfl⟩
  have hstep := (step_vector hproc hinbox hrep hvec).trans (runNext_vector hvec hdecode)
  refine ⟨fun hslot hwords => hstep.trans (if_pos ⟨hslot, hwords⟩), fun t hone hkeep hz ht => ?_⟩
  have hruns : ¬(v.slot = 1 ∧ i.words = 2) := by
    rintro ⟨hslot, hwords⟩
    rcases hone with h0 | h1
    · simp [hslot] at h0
    · omega
  have hissue : step s = .next (State.mark i s t).endVector := by
    rw [hstep, if_neg hruns, issue_next hz ht, retire_vector hvec hrep htr]
  have htvec : (State.mark i s t).vec = some { v with slot := v.slot + BitVec.ofNat 2 i.words } :=
    exec_vec (t := t) hvec hkeep hz ht
  refine ⟨_, hissue, fun hslot hwords => ?_, fun hend => ?_, fun hflow => ?_, endVector_frame _⟩
  · rw [endVector_more htvec (by simp [hslot, hwords]), htvec, hslot, hwords]
    exact ⟨rfl, rfl⟩
  · have hused : v.slot + BitVec.ofNat 2 i.words = 2 ∨ v.slot + BitVec.ofNat 2 i.words = 3 := by
      rcases hdecode with ⟨hslot, -⟩ | ⟨hslot, -⟩
      · have hwords : i.words = 2 := hend.resolve_left (by simp [hslot])
        simp [hslot, hwords]
      · have hwords : i.words = 1 := hone.resolve_left (by simp [hslot])
        simp [hslot, hwords]
    rw [endVector_used htvec hused]
    exact ⟨rfl, rfl⟩
  · rw [endVector_frame]
    exact (congrArg Prod.fst (exec_passes hflow ht)).trans (advance_pc_vector _ hvec)

end Sys2Proof.Machine
end

section
/-! Jumps, subroutine jumps and bit-test jumps (47_nonparallel_encoding_only.md R465 to R474). -/

namespace Sys2Proof.Machine

section Jumps
variable {s t u : State}

/-! ### JMP and Jcc (R466, R467) -/

theorem exec_jmpEa {ea : Ea} {b : Addr} (h : s.resolve ea = .ok (b, u)) :
    exec (.jmpEa ea) s = .next ((u.advance (1 + ea.extra)).setPc b) := by
  change execJmpEa ea s = _
  simp only [execJmpEa, h, endJump, State.jump]

theorem exec_jccShort (k : Cond) (a : BitVec 12) (s : State) :
    exec (.jccShort k a) s = .next (s.jumpIf (condHolds k s.ccr) 1 (a.setWidth 16)) := rfl

theorem exec_jccEa {k : Cond} {ea : Ea} {b : Addr} (h : s.resolve ea = .ok (b, u)) :
    exec (.jccEa k ea) s = .next (u.jumpIf (condHolds k s.ccr) (1 + ea.extra) b) := by
  change execJccEa k ea s = _
  simp only [execJccEa, h, endJump]

/-- Settles O45: each form is `State.jump`, or the end of an instruction where its condition does not hold. -/
theorem jumpsLoadThePc : Obligations.JumpsLoadThePc := by
  refine fun s u k a ea b => ⟨rfl, fun hk => ?_, fun hk => ?_, fun h => ⟨exec_jmpEa h, fun hk => ?_, fun hk => ?_⟩⟩
  · rw [exec_jccShort, hk]
    rfl
  · rw [exec_jccShort, hk]
    rfl
  · rw [exec_jccEa h, hk]
    rfl
  · rw [exec_jccEa h, hk]
    rfl

/-! ### Subroutine jumps (R468, 70_reset_and_hazards.md R570) -/

/-- What a subroutine jump does where its condition holds and where it does not. -/
theorem endJump_callIf (b : Bool) (n : Nat) (target : Addr) (saved : BitVec 16) (u : State) :
    (b = false → endJump (u.callIf b n target saved) = .next (u.advance n)) ∧
    (b = true → u.lf = true → target = u.ctl.la →
      endJump (u.callIf b n target saved) = .fault (.restricted .callToLoopEnd)) ∧
    (b = true → u.lf = false ∨ target ≠ u.ctl.la →
      ∃ t, endJump (u.callIf b n target saved) = .next t ∧ calls n target saved u t) := by
  refine ⟨fun hb => ?_, fun hb hlf hla => ?_, fun hb h => ?_⟩
  · rw [hb]
    rfl
  · have hcall : u.call n target saved = .error (.restricted .callToLoopEnd) := if_pos ⟨hlf, hla⟩
    rw [hb, State.callIf, if_pos rfl, hcall]
    rfl
  · rw [hb, State.callIf, if_pos rfl, call_ok n target saved h]
    refine ⟨_, rfl, fun hvec => ?_, fun v hvec => ?_⟩ <;> rw [hvec]

theorem resolve_ctl {ea : Ea} {a : Addr} (h : s.resolve ea = .ok (a, u)) : u.ctl = s.ctl := by
  rw [resolve_state h]

theorem exec_jsrEa {ea : Ea} {a : Addr} (h : s.resolve ea = .ok (a, u)) :
    exec (.jsrEa ea) s = endJump (u.callIf true (1 + ea.extra) a s.ctl.sr) := by
  change execJsrEa ea s = _
  simp only [execJsrEa, h]
  rfl

theorem exec_jsccEa {k : Cond} {ea : Ea} {a : Addr} (h : s.resolve ea = .ok (a, u)) :
    exec (.jsccEa k ea) s = endJump (u.callIf (condHolds k s.ccr) (1 + ea.extra) a s.ctl.sr) := by
  change execJsccEa k ea s = _
  simp only [execJsccEa, h]

end Jumps

/-- Settles O46: each form is `State.callIf` on a state that differs from the first in an address register alone. -/
theorem subroutineJumpsPushTheReturn : Obligations.SubroutineJumpsPushTheReturn := by
  intro s u i len target taken h
  have hform : exec i s = endJump (u.callIf taken len target s.ctl.sr) ∧ u.ctl = s.ctl := by
    rcases h with ⟨a, rfl, rfl, rfl, ⟨rfl, rfl⟩ | ⟨k, rfl, rfl⟩⟩ | ⟨ea, hea, rfl, ⟨rfl, rfl⟩ | ⟨k, rfl, rfl⟩⟩
    · exact ⟨rfl, rfl⟩
    · exact ⟨rfl, rfl⟩
    · exact ⟨exec_jsrEa hea, resolve_ctl hea⟩
    · exact ⟨exec_jsccEa hea, resolve_ctl hea⟩
  obtain ⟨hexec, hctl⟩ := hform
  have hlf : u.lf = s.lf := congrArg (fun c : Ctl => c.sr.getLsbD 15) hctl
  have hla : u.ctl.la = s.ctl.la := congrArg Ctl.la hctl
  rw [hexec, ← hlf, ← hla]
  exact endJump_callIf taken len target s.ctl.sr u

/-! ### Bit-test jumps (R470 to R474) -/

section BitJumps
variable {pp : DSpace → BitVec 6 → BitVec 5 → Addr → Instr} {ea : DSpace → Ind → BitVec 5 → Addr → Instr}
  {aa : DSpace → BitVec 6 → BitVec 5 → Addr → Instr} {reg : Reg → BitVec 5 → Addr → Instr}
  {target : Addr} {i : Instr} {b : Bool} {s u : State}

/-- The four forms of a bit-test jump find the tested bit, and the state after their operand is read. -/
theorem exec_testedBit {run : Except Fault (Bool × State) → Result}
    (hpp : ∀ sp x n, exec (pp sp x n target) s = run (.ok (s.bitAt sp (ioAddr x) n)))
    (hea : ∀ sp j n, exec (ea sp j n target) s = run (s.bitInd sp j n))
    (haa : ∀ sp x n, exec (aa sp x n target) s = run (.ok (s.bitAt sp (shortAddr x) n)))
    (hreg : ∀ r n, exec (reg r n target) s = run (s.bitOfReg r n))
    (h : testedBit pp ea aa reg target i b s u) : exec i s = run (.ok (b, u)) := by
  obtain ⟨n, ⟨sp, x, rfl, rfl, rfl⟩ | ⟨sp, x, rfl, rfl, rfl⟩ | ⟨sp, j, a, w, rfl, hw, rfl, rfl⟩ |
    ⟨r, v, rfl, hread, rfl⟩⟩ := h
  · rw [hpp, State.bitAt, ioAddr_eq]
  · rw [haa, State.bitAt, loadData_memory (isIo_shortAddr x)]
    rfl
  · rw [hea, State.bitInd, hw]
    rfl
  · rw [hreg, State.bitOfReg, hread]

theorem bitJump_ok (want : Bool) (target : Addr) (b : Bool) (u : State) :
    bitJump want target (.ok (b, u)) = .next (if b = want then (u.advance 2).setPc target else u.advance 2) := by
  cases b <;> cases want <;> rfl

theorem bitCall_ok (want : Bool) (target : Addr) (saved : BitVec 16) (b : Bool) (u : State) :
    bitCall want target saved (.ok (b, u)) = endJump (u.callIf (b == want) 2 target saved) := rfl

end BitJumps

/-- Settles O47: each form ends in a jump or a subroutine jump on the state after its operand is read
(`exec_testedBit`). -/
theorem bitJumpsTestOneBit : Obligations.BitJumpsTestOneBit := by
  refine ⟨fun s u i target b => ⟨fun h => ?_, fun h => ?_⟩, fun s u i target b want h => ?_⟩
  · rw [exec_testedBit (run := bitJump false target) (fun _ _ _ => rfl) (fun _ _ _ => rfl) (fun _ _ _ => rfl)
      (fun _ _ => rfl) h, bitJump_ok]
  · rw [exec_testedBit (run := bitJump true target) (fun _ _ _ => rfl) (fun _ _ _ => rfl) (fun _ _ _ => rfl)
      (fun _ _ => rfl) h, bitJump_ok]
  · have hexec : exec i s = endJump (u.callIf (b == want) 2 target s.ctl.sr) := by
      rcases h with ⟨h, rfl⟩ | ⟨h, rfl⟩
      · exact exec_testedBit (run := bitCall false target s.ctl.sr) (fun _ _ _ => rfl) (fun _ _ _ => rfl)
          (fun _ _ _ => rfl) (fun _ _ => rfl) h
      · exact exec_testedBit (run := bitCall true target s.ctl.sr) (fun _ _ _ => rfl) (fun _ _ _ => rfl)
          (fun _ _ _ => rfl) (fun _ _ => rfl) h
    rw [hexec]
    obtain ⟨hnot, hstop, hcall⟩ := endJump_callIf (b == want) 2 target s.ctl.sr u
    exact ⟨fun hb => hnot (by simpa using hb), fun hb => hstop (by simpa using hb),
      fun hb => hcall (by simpa using hb)⟩

end Sys2Proof.Machine
end

section
/-! The control instructions (41_program_control.md; 47_nonparallel_encoding_only.md R443, R444, R449, R450, R456,
R479). -/

namespace Sys2Proof.Machine

section Control
variable {s u : State}

/-! ### Immediate logic (R443, R444) -/

/-- A new SR, and PC past the word. -/
theorem advance_setSr (v : BitVec 16) (n : Nat) (s : State) :
    (s.setSr v).advance n =
      { s.advance n with ctl := { (s.advance n).ctl with sr := v &&& s.plat.srMask } } := by
  rw [advance_of_place n (place_setSr v s), advance_state n s]
  rfl

/-- A new OMR, and PC past the word. -/
theorem advance_setOmr (v : BitVec 8) (n : Nat) (s : State) :
    ({ s with ctl := { s.ctl with omr := v } } : State).advance n =
      { s.advance n with ctl := { (s.advance n).ctl with omr := v } } := by
  refine (advance_of_place (s := s) (u := { s with ctl := { s.ctl with omr := v } }) n rfl).trans ?_
  rw [advance_state n s]

/-! ### The debug state (R449, R450) -/

theorem enterDebug_none (h : s.plat.hasDebugPort = false) : s.enterDebug = s := by
  simp [State.enterDebug, h]

theorem enterDebug_port (h : s.plat.hasDebugPort = true) :
    s.enterDebug.advance 1 = { s.advance 1 with proc := .debug, outbox := .debugRequest :: s.outbox } := by
  rw [advance_of_place 1 (place_enterDebug s), State.enterDebug, if_pos h, advance_state 1 s]
  rfl

/-! ### Requests (R456; 41_program_control.md R250, R262) -/

/-- An instruction that raises its own interrupt. -/
theorem advance_pend (q : Source) (s : State) :
    (s.pend q).advance 1 = { s.advance 1 with pending := (s.pend q).pending } := by
  rw [advance_of_place 1 (place_pend q s), advance_state 1 s]
  rfl

theorem isPending_clearMaskable (q : Source) (s : State) :
    s.clearMaskable.isPending q = (s.isPending q && !q.maskable) := by
  have hcore : (!q.maskable) = decide (q.idx.val < 5) := by cases q <;> rfl
  rw [hcore, State.isPending, State.isPending]
  exact Vector.getElem_ofFn ..

/-- RESET's writes, and PC past the word. -/
theorem advance_requests (p : Vector Bool 19) (m : HostMsg) (v : BitVec 16) (s : State) :
    ({ s with ipr := v, outbox := m :: s.outbox, pending := p } : State).advance 1 =
      { s.advance 1 with ipr := v, outbox := m :: s.outbox, pending := p } := by
  refine (advance_of_place (s := s) (u := { s with ipr := v, outbox := m :: s.outbox, pending := p }) 1 rfl).trans ?_
  rw [advance_state 1 s]

theorem exec_reset (s : State) :
    exec .reset s = .next { s.advance 1 with
      ipr := 0, outbox := .peripheralReset :: s.outbox, pending := s.clearMaskable.pending } := by
  have hstate : ({ s.clearMaskable.tell .peripheralReset with ipr := 0 } : State) =
      { s with ipr := 0, outbox := .peripheralReset :: s.outbox, pending := s.clearMaskable.pending } := by
    rw [State.tell]
    rfl
  have hexec : exec .reset s = execReset s := rfl
  rw [hexec, execReset, hstate, advance_requests]

end Control

/-- Settles O52: each instruction is one write of the state before the end of its word. -/
theorem controlInstructions : Obligations.ControlInstructions := by
  refine ⟨fun s i _ => ?_, fun s k => ⟨fun hport => ?_, fun hport => ⟨?_, ?_⟩⟩, fun s => ?_, fun s => ?_⟩
  · exact ⟨congrArg Host.Outcome.next (advance_setSr ..), congrArg Host.Outcome.next (advance_setSr ..),
      congrArg Host.Outcome.next (advance_setOmr ..), congrArg Host.Outcome.next (advance_setSr ..),
      congrArg Host.Outcome.next (advance_setSr ..), congrArg Host.Outcome.next (advance_setOmr ..)⟩
  · have hsame : (if condHolds k s.ccr then s.enterDebug else s) = s := by rw [enterDebug_none hport, ite_self]
    refine ⟨?_, ?_⟩
    · exact congrArg (fun u : State => Host.Outcome.next (u.advance 1)) (enterDebug_none hport)
    · exact congrArg (fun u : State => Host.Outcome.next (u.advance 1)) hsame
  · exact congrArg Host.Outcome.next (enterDebug_port hport)
  · refine (apply_ite (fun u : State => Host.Outcome.next (u.advance 1)) (condHolds k s.ccr = true) _ _).trans ?_
    rw [enterDebug_port hport, ← apply_ite Host.Outcome.next]
  · exact ⟨rfl, rfl, rfl, ⟨_, congrArg Host.Outcome.next (advance_pend ..), rfl, (isPending_pend .swi · s)⟩,
      ⟨_, congrArg Host.Outcome.next (advance_pend ..), rfl, (isPending_pend .illegal · s)⟩⟩
  · exact ⟨_, exec_reset s, rfl, rfl, (isPending_clearMaskable · s), rfl⟩

end Sys2Proof.Machine
end

section
/-! The bit instructions (47_nonparallel_encoding_only.md R445 to R448). -/

namespace Sys2Proof.Machine

section Bits
variable {s u : State}

/-! ### The bit before, and C -/

/-- `putBit` changes the one bit. -/
theorem oneBit_putBit (v : Word) (n : Nat) (b : Bool) : oneBit v (putBit v n b) n b := fun k hk => by
  rw [Effect.putBit_bit]
  simp only [hk, and_true]

/-- Where the status register is legal, C is all that `setC` changes. -/
theorem setC_state (h : s.srLegal = true) (b : Bool) :
    s.setC b = { s with ctl := { s.ctl with sr := putBit s.ctl.sr 0 b } } := by
  have hsr : withCcr s.ctl.sr (s.ccr.update { c := some b }) = putBit s.ctl.sr 0 b := by
    refine BitVec.eq_of_getLsbD_eq fun i hi => ?_
    rw [withCcr_bit, Effect.putBit_bit]
    obtain ⟨h0, h1, h2, h3, h4, h5, h6, h7⟩ := ccr_bits (s.ccr.update { c := some b })
    by_cases hlow : i < 8
    · rw [if_pos hlow]
      interval_cases i <;> simp only [h0, h1, h2, h3, h4, h5, h6, h7] <;> simp [Ccr.update, State.ccr, ccrOf]
    · rw [if_neg hlow, if_neg (by omega)]
      simp [hi]
  rw [State.setC, setFlags_of_legal h, State.withResult, hsr]

/-! ### The operands in memory -/

theorem exec_modifyEa {op : BitOp} {sp : DSpace} {ea : Ea} {n : BitVec 5} {a : Addr} (h : s.resolve ea = .ok (a, u)) :
    modifyEa op sp ea n s = .next ((u.modifyMem op sp a n).advance (1 + ea.extra)) := by
  simp only [modifyEa, h, endBit]

theorem exec_btstEa {sp : DSpace} {ea : Ea} {n : BitVec 5} {a : Addr} (h : s.resolve ea = .ok (a, u)) :
    exec (.btstEa sp ea n) s = .next ((u.testMem sp a n).advance (1 + ea.extra)) := by
  change execBtstEa sp ea n s = _
  simp only [execBtstEa, h, endBit]

theorem exec_btstReg {r : Reg} {n : BitVec 5} {v : Word} (h : s.readBitReg r = .ok (v, u)) :
    exec (.btstReg r n) s = .next ((u.setC (v.getLsbD n.toNat)).advance 1) := by
  change execBtstReg r n s = _
  simp only [execBtstReg, h, endBit]

/-! ### Registers -/

theorem modifyReg_of_ne {op : BitOp} {r : Reg} {n : BitVec 5} {v : Word} (h : s.readBitReg r = .ok (v, u))
    (hr : r ≠ .c .sr) :
    s.modifyReg op r n =
      .ok ((u.setC (v.getLsbD n.toNat)).writeReg r (putBit v n.toNat (bitNew op (v.getLsbD n.toNat)))) := by
  rw [State.modifyReg, h]
  cases r with
  | c x =>
    cases x
    case sr => exact absurd rfl hr
    all_goals rfl
  | _ => rfl

theorem modifyReg_sr {op : BitOp} {n : BitVec 5} {v : Word} (h : s.readBitReg (.c .sr) = .ok (v, u))
    (hs : s.srLegal = true) :
    s.modifyReg op (.c .sr) n =
      .ok (s.setSr (putBit (putBit s.ctl.sr 0 (v.getLsbD n.toNat)) n.toNat (bitNew op (v.getLsbD n.toNat)))) := by
  have hu : u = s := by
    cases h
    rfl
  rw [State.modifyReg, h, hu]
  simp only [setC_state hs]
  rfl

/-- The four forms of a bit instruction, from what their arms run. -/
theorem changesOneBit_of {pp : DSpace → BitVec 6 → BitVec 5 → Instr} {ea : DSpace → Ea → BitVec 5 → Instr}
    {aa : DSpace → BitVec 6 → BitVec 5 → Instr} {reg : Reg → BitVec 5 → Instr} (op : BitOp)
    (hpp : ∀ sp x n s, exec (pp sp x n) s = .next ((s.modifyMem op sp (ioAddr x) n).advance 1))
    (hea : ∀ sp x n s, exec (ea sp x n) s = modifyEa op sp x n s)
    (haa : ∀ sp x n s, exec (aa sp x n) s = .next ((s.modifyMem op sp (shortAddr x) n).advance 1))
    (hreg : ∀ r n s, exec (reg r n) s = endBit 1 (s.modifyReg op r n)) :
    changesOneBit pp ea aa reg (bitNew op) := by
  refine fun s n _ => ⟨fun sp i len a u h => ⟨_, oneBit_putBit _ _ _, ?_⟩,
    fun r v u hread => ⟨_, oneBit_putBit _ _ _, fun hr => ?_, fun hr hs => ?_⟩⟩
  · rcases h with ⟨x, rfl, rfl, rfl, rfl⟩ | ⟨x, rfl, rfl, rfl, rfl⟩ | ⟨x, rfl, rfl, hx⟩
    · rw [hpp, ioAddr_eq]
      rfl
    · exact haa sp x n u
    · rw [hea, exec_modifyEa hx]
      rfl
  · rw [hreg, modifyReg_of_ne hread hr]
    rfl
  · subst hr
    refine ⟨_, (hreg ..).trans (congrArg (endBit 1) (modifyReg_sr hread hs)), ?_, ?_⟩
    · rw [advance_setSr]
    · rw [advance_setSr]

end Bits

/-- Settles O44: the writing forms are `changesOneBit_of` for each new bit, and BTST writes C alone. -/
theorem bitInstructionsTouchOneBit : Obligations.BitInstructionsTouchOneBit := by
  refine ⟨⟨?_, ?_, ?_⟩, fun s n _ => ⟨fun sp x => ⟨?_, ?_⟩, fun sp ea a u h => exec_btstEa h,
    fun r v u h => exec_btstReg h⟩⟩
  · exact changesOneBit_of .chg (fun _ _ _ _ => rfl) (fun _ _ _ _ => rfl) (fun _ _ _ _ => rfl) (fun _ _ _ => rfl)
  · exact changesOneBit_of .clr (fun _ _ _ _ => rfl) (fun _ _ _ _ => rfl) (fun _ _ _ _ => rfl) (fun _ _ _ => rfl)
  · exact changesOneBit_of .set (fun _ _ _ _ => rfl) (fun _ _ _ _ => rfl) (fun _ _ _ _ => rfl) (fun _ _ _ => rfl)
  · rw [← ioAddr_eq]
    rfl
  · change Host.Outcome.next ((s.testMem sp (shortAddr x) n).advance 1) = _
    rw [State.testMem, loadData_memory (isIo_shortAddr x)]
    rfl

end Sys2Proof.Machine
end

section
/-! The pieces of the moves where their operands resolve (45_parallel_moves.md R361, R368 to R373), and the moves made
of one of them (47_nonparallel_encoding_only.md R475, R476). -/

namespace Sys2Proof.Machine

/-! ### The ends of a move -/

section Ends
variable {s t : State}

theorem moveOnly_ok {mv : ParMove} (h : s.runMove mv = .ok t) :
    moveOnly mv s = .next (t.advance (1 + mv.extra)) := by
  rw [moveOnly, h]

theorem endMove_ok {n : Nat} {r : Except Fault State} (h : r = .ok t) : endMove n r = .next (t.advance n) := by
  rw [h]
  rfl

end Ends

/-! ### A word between a register and memory (R372, R373) -/

section Pieces
variable {s u w : State} {sp : DSpace} {r : Reg} {ea : Ea} {a : Addr} {v : Word}

theorem loadEa_mem (h : s.resolve ea = .ok (a, u)) : s.loadEa sp (.mem ea) = .ok (u.loadData sp a) := by
  rw [State.loadEa, h]

theorem storeEa_ok (v : Word) (h : s.resolve ea = .ok (a, w)) : s.storeEa sp ea v = .ok (w.storeData sp a v) := by
  rw [State.storeEa, h]

theorem moveEa_load (r : Reg) (h : s.resolve ea = .ok (a, u)) :
    s.moveEa sp (.toReg (.mem ea)) r = .ok ((u.loadData sp a).2.writeReg r (u.loadData sp a).1) := by
  rw [State.moveEa, loadEa_mem h]

theorem moveEa_imm (sp : DSpace) (r : Reg) (v : Word) (s : State) :
    s.moveEa sp (.toReg (.imm v)) r = .ok (s.writeReg r v) := rfl

/-- The register is read before the address register is updated (R361). -/
theorem moveEa_store (hr : s.readReg r = .ok (v, u)) (h : u.resolve ea = .ok (a, w)) :
    s.moveEa sp (.toMem ea) r = .ok (w.storeData sp a v) := by
  rw [State.moveEa, hr]
  exact storeEa_ok v h

theorem moveAt_load (sp : DSpace) (r : Reg) (aa : BitVec 6) (s : State) :
    s.moveAt sp .toReg (shortAddr aa) r = .ok (s.writeReg r (s.peek sp.toSpace (aa.setWidth 16))) := by
  rw [State.moveAt, State.fetchSide, loadData_memory (isIo_shortAddr aa)]
  rfl

theorem moveAt_store (sp : DSpace) (aa : BitVec 6) (hr : s.readReg r = .ok (v, u)) :
    s.moveAt sp .toMem (shortAddr aa) r = .ok (u.poke sp.toSpace (aa.setWidth 16) v) := by
  rw [State.moveAt, State.fetchSide, hr]
  exact congrArg Except.ok (storeData_memory (isIo_shortAddr aa) v u)

end Pieces

/-! ### Memory after a store -/

section Memory
variable {s w : State} {sp : DSpace} {a : Addr} {v : Word}

theorem peek_of_store (h : w.store = s.store) (sp : Space) (a : Addr) : w.peek sp a = s.peek sp a :=
  congrArg (fun m : Mems × BitVec 16 × BitVec 16 => (m.1.get sp).read sp a) h

theorem peek_advance (n : Nat) (sp : Space) (a : Addr) (s : State) : (s.advance n).peek sp a = s.peek sp a :=
  peek_of_store (store_advance n s) sp a

/-- A store by an instruction whose operands leave memory: the word outside the I/O range, and every other word as it
was. -/
theorem peek_stored (n : Nat) (h : w.store = s.store) :
    (isIo a = false → ((w.storeData sp a v).advance n).peek sp.toSpace a = v) ∧
    ∀ sp' a', (sp', a') ≠ (sp.toSpace, a) → ((w.storeData sp a v).advance n).peek sp' a' = s.peek sp' a' := by
  refine ⟨fun hio => ?_, fun sp' a' hne => ?_⟩
  · rw [peek_advance, storeData_peek, if_pos ⟨hio, rfl, rfl⟩]
  · rw [peek_advance, peek_storeData_other hne, peek_of_store h]

/-- The same for a word of memory that is not of X or Y. -/
theorem peek_poked {sp : Space} (n : Nat) (h : w.store = s.store) :
    ((w.poke sp a v).advance n).peek sp a = v ∧
    ∀ sp' a', (sp', a') ≠ (sp, a) → ((w.poke sp a v).advance n).peek sp' a' = s.peek sp' a' := by
  refine ⟨?_, fun sp' a' hne => ?_⟩
  · rw [peek_advance, State.peek_poke, if_pos ⟨rfl, rfl⟩]
  · rw [peek_advance, State.peek_poke, if_neg (by simpa using hne), peek_of_store h]

end Memory

/-! ### MOVE without memory, and LUA (R368 to R371, R475) -/

theorem immShort_toNat (dst : Reg5) (i : BitVec 8) :
    (immShort dst i).toNat =
      if dst ∈ [.d .x0, .d .x1, .d .y0, .d .y1, .d .a, .d .b] then i.toNat * 2 ^ 16 else i.toNat := by
  have hfraction : (i ++ 0#16).toNat = i.toNat * 2 ^ 16 := by
    rw [BitVec.toNat_append]
    simp [Nat.shiftLeft_eq]
  have hinteger : (i.setWidth 24).toNat = i.toNat := by bv_omega
  cases dst with
  | d x => cases x <;> simp [immShort, hfraction, hinteger]
  | r k => simp [immShort, hinteger]
  | n k => simp [immShort, hinteger]

theorem exec_lua {mm : UMode} {r : BitVec 3} {a : Addr} {s : State} (h : s.stepped mm.toAguMode r = .ok a)
    (dst : RNReg) :
    exec (.lua mm r dst) s =
      .next ((match dst with | .r k => s.setR k a | .n k => s.setN k a : State).advance 1) := by
  change execLua mm r dst s = _
  rw [execLua, h]
  rfl

/-- Settles O37: each form is its move field (`moveOnly_ok`), and LUA writes the address to its destination. -/
theorem registerMoves : Obligations.RegisterMoves := by
  intro s
  refine ⟨rfl, fun dst i => ⟨immShort dst i, immShort_toNat dst i, rfl⟩, fun src dst v u h => ?_,
    fun mm r a h => ⟨?_, fun k => exec_lua h (.r k), fun k => exec_lua h (.n k)⟩⟩
  · have hmove : s.runMove (.reg src dst) = .ok (u.writeReg dst.toReg v) := by rw [State.runMove, h]
    exact moveOnly_ok hmove
  · have hmove : s.runMove (.upd mm r) = .ok (s.setR r a) := by rw [State.runMove, h]
    exact moveOnly_ok hmove

/-! ### X: and Y: moves (R372, R373) -/

/-- Settles O38: each form is `State.moveEa` or `State.moveAt`; a store leaves every other word (`peek_stored`). -/
theorem memoryMoves : Obligations.MemoryMoves := by
  refine ⟨fun s r => ⟨fun ea a u h => ⟨?_, ?_⟩, fun v => ⟨rfl, rfl⟩, fun aa => ⟨?_, ?_⟩⟩,
    fun s u sp r v hr => ⟨fun ea a w hw => ?_, fun aa => ?_⟩⟩
  · exact moveOnly_ok (mv := .xEa (.toReg (.mem ea)) r) (moveEa_load r.toReg h)
  · exact moveOnly_ok (mv := .yEa (.toReg (.mem ea)) r) (moveEa_load r.toReg h)
  · exact moveOnly_ok (mv := .xAa .toReg aa r) (moveAt_load .x r.toReg aa s)
  · exact moveOnly_ok (mv := .yAa .toReg aa r) (moveAt_load .y r.toReg aa s)
  · have hexec : exec (match sp with | .x => .moveXEa (.toMem ea) r | .y => .moveYEa (.toMem ea) r) s =
        .next ((w.storeData sp a v).advance (1 + ea.extra)) := by
      cases sp with
      | x => exact moveOnly_ok (mv := .xEa (.toMem ea) r) (moveEa_store hr hw)
      | y => exact moveOnly_ok (mv := .yEa (.toMem ea) r) (moveEa_store hr hw)
    exact ⟨_, hexec, rfl, peek_stored _ ((store_resolve hw).trans (store_readReg hr))⟩
  · have hexec : exec (match sp with | .x => .moveXAa .toMem aa r | .y => .moveYAa .toMem aa r) s =
        .next ((u.poke sp.toSpace (aa.setWidth 16) v).advance 1) := by
      cases sp with
      | x => exact moveOnly_ok (mv := .xAa .toMem aa r) (moveAt_store .x aa hr)
      | y => exact moveOnly_ok (mv := .yAa .toMem aa r) (moveAt_store .y aa hr)
    exact ⟨_, hexec, rfl, peek_poked _ (store_readReg hr)⟩

/-! ### MOVEC (R476) -/

/-- MOVEC between registers: the source's side effects come before the destination is written. -/
theorem execMovecReg_ok {w : Dir} {r : Reg} {c : CReg} {src dst : Reg} {v : Word} {s u : State}
    (hq : (match w with | .toReg => (r, c.toReg) | .toMem => (c.toReg, r)) = (src, dst))
    (h : s.readReg src = .ok (v, u)) : exec (.movecReg w r c) s = .next ((u.writeReg dst v).advance 1) := by
  have hrun : endMove 1 (match s.readReg src with
      | .error f => .error f
      | .ok (v, t) => .ok (t.writeReg dst v)) = .next ((u.writeReg dst v).advance 1) := by
    rw [h]
    rfl
  cases w <;> cases hq <;> exact hrun

/-- Settles O42: each form is a move's piece with the control register. -/
theorem controlRegisterMoves : Obligations.ControlRegisterMoves := by
  intro s sp c
  refine ⟨fun ea a u h => endMove_ok (moveEa_load c.toReg h), fun v => rfl,
    fun aa => endMove_ok (moveAt_load sp c.toReg aa s),
    fun v u hr => ⟨fun ea a w hw => endMove_ok (moveEa_store hr hw), fun aa => endMove_ok (moveAt_store sp aa hr),
      fun r => execMovecReg_ok rfl hr⟩,
    fun r v u hr => execMovecReg_ok rfl hr, fun i => rfl⟩

end Sys2Proof.Machine
end

section
/-! L: moves, the double moves, and the moves with P memory and the peripherals (45_parallel_moves.md R374 to R379;
47_nonparallel_encoding_only.md R477, R478). -/

namespace Sys2Proof.Machine

/-! ### L: moves (R374) -/

section Long
variable {s u w : State} {m : ScaleMode} {a : Addr} {ea : Ea} {l : LOp}

/-- A and B as sources, where the scaling mode is not the reserved one (10_state.md R35). -/
theorem readLimited_ok (hm : s.scale = .ok m) (d : Acc) :
    s.readLimited d = .ok (limit24 m (s.acc d), s.limited m (s.acc d)) := by
  rw [State.readLimited, hm]

theorem readBoth_ok (hm : s.scale = .ok m) (d e : Acc) :
    State.readLong.readBoth s d e = .ok ((limit24 m (s.acc d), limit24 m (s.acc e)),
      (s.limited m (s.acc d)).limited m (s.acc e)) := by
  have hsecond : (s.limited m (s.acc d)).readLimited e =
      .ok (limit24 m (s.acc e), (s.limited m (s.acc d)).limited m (s.acc e)) :=
    readLimited_ok ((scale_limited m (s.acc d) s).trans hm) e
  rw [State.readLong.readBoth, readLimited_ok hm d]
  simp only [hsecond]

theorem readAcc_ok (hm : s.scale = .ok m) (d : Acc) :
    State.readLong.readAcc s d = .ok (((limit48 m (s.acc d)).extractLsb' 24 24, (limit48 m (s.acc d)).extractLsb' 0 24),
      s.limited m (s.acc d)) := by
  rw [State.readLong.readAcc, hm]

/-- The two words of an operand, where the scaling mode is not the reserved one. -/
theorem readLong_ok (hm : s.scale = .ok m) (l : LOp) :
    ∃ hi lo u, s.readLong l = .ok ((hi, lo), u) ∧
      (l = .a10 → hi = accMid s.dalu.a ∧ lo = accLow s.dalu.a) ∧
      (l = .b10 → hi = accMid s.dalu.b ∧ lo = accLow s.dalu.b) ∧
      (l = .x → hi = s.dalu.x1 ∧ lo = s.dalu.x0) ∧ (l = .y → hi = s.dalu.y1 ∧ lo = s.dalu.y0) ∧
      (l = .a → hi ++ lo = limit48 m s.dalu.a) ∧ (l = .b → hi ++ lo = limit48 m s.dalu.b) ∧
      (l = .ab → hi = limit24 m s.dalu.a ∧ lo = limit24 m s.dalu.b) ∧
      (l = .ba → hi = limit24 m s.dalu.b ∧ lo = limit24 m s.dalu.a) := by
  cases l with
  | a10 | b10 | x | y => exact ⟨_, _, _, rfl, by simp⟩
  | a =>
    refine ⟨_, _, _, readAcc_ok hm .a, ?_⟩
    simpa [State.acc, DAlu.acc] using append_extract (a := 24) (b := 24) _
  | b =>
    refine ⟨_, _, _, readAcc_ok hm .b, ?_⟩
    simpa [State.acc, DAlu.acc] using append_extract (a := 24) (b := 24) _
  | ab => exact ⟨_, _, _, readBoth_ok hm .a .b, by simp [State.acc, DAlu.acc]⟩
  | ba => exact ⟨_, _, _, readBoth_ok hm .b .a, by simp [State.acc, DAlu.acc]⟩

theorem runMove_lEa_load (h : s.resolve ea = .ok (a, u)) : s.runMove (.lEa .toReg ea l) = .ok (u.loadLong a l) := by
  rw [State.runMove, h]

theorem runMove_lEa_store {v : Word × Word} (hv : s.readLong l = .ok (v, u)) (h : u.resolve ea = .ok (a, w)) :
    s.runMove (.lEa .toMem ea l) = .ok (w.storeLong a v) := by
  rw [State.runMove, hv]
  simp only [h]

theorem runMove_lAa_store {v : Word × Word} (aa : BitVec 6) (hv : s.readLong l = .ok (v, u)) :
    s.runMove (.lAa .toMem aa l) =
      .ok ((u.poke .x (aa.setWidth 16) v.1).poke .y (aa.setWidth 16) v.2) := by
  have hstore : u.storeLong (shortAddr aa) v = (u.poke .x (aa.setWidth 16) v.1).poke .y (aa.setWidth 16) v.2 := by
    rw [State.storeLong, storeData_memory (isIo_shortAddr aa), storeData_memory (isIo_shortAddr aa)]
    rfl
  rw [State.runMove, hv]
  exact congrArg Except.ok hstore

theorem loadData_dalu (sp : DSpace) (a : Addr) (u : State) : (u.loadData sp a).2.dalu = u.dalu := by
  rw [loadData_state]

theorem advance_dalu (x : DAlu) (n : Nat) (u : State) :
    ({ u with dalu := x } : State).advance n = { u.advance n with dalu := x } := by
  refine (advance_of_place (s := u) (u := { u with dalu := x }) n rfl).trans ?_
  rw [advance_state n u]

/-- The operand takes its two words, and nothing else of the registers changes. -/
theorem loadLong_advance (a : Addr) (l : LOp) (n : Nat) (u : State) :
    (u.loadLong a l).advance n =
      { (((u.loadData .x a).2.loadData .y a).2).advance n with
        dalu := u.dalu.putLong l (u.loadData .x a).1 ((u.loadData .x a).2.loadData .y a).1 } := by
  rw [State.loadLong, advance_dalu, loadData_dalu, loadData_dalu]

/-- Two words stored leave every other word. -/
theorem peek_storeLong {sp' : Space} {a' : Addr} (h : sp' = .p ∨ a' ≠ a) (v : Word × Word) (w : State) :
    (w.storeLong a v).peek sp' a' = w.peek sp' a' := by
  have hne (sp : DSpace) : (sp', a') ≠ (sp.toSpace, a) := by
    rintro heq
    obtain ⟨rfl, rfl⟩ := Prod.mk.inj heq
    cases sp <;> simp [DSpace.toSpace] at h
  rw [State.storeLong, peek_storeData_other (sp := .y) (hne .y), peek_storeData_other (sp := .x) (hne .x)]

end Long

/-- Settles O39: the operand takes or gives its two words (`loadLong_advance`, `readLong_ok`). -/
theorem longMoves : Obligations.LongMoves := by
  refine ⟨fun s u i len a l h => ?_, fun s m l hm => ?_⟩
  · have hform : exec i s = .next ((u.loadLong a l).advance len) ∧ u.dalu = s.dalu := by
      rcases h with ⟨ea, rfl, rfl, hea⟩ | ⟨aa, rfl, rfl, rfl, rfl⟩
      · exact ⟨moveOnly_ok (mv := .lEa .toReg ea l) (runMove_lEa_load hea), by rw [resolve_state hea]⟩
      · exact ⟨rfl, rfl⟩
    obtain ⟨hexec, hdalu⟩ := hform
    rw [loadLong_advance, hdalu] at hexec
    refine ⟨_, hexec, rfl, ?_⟩
    cases l <;> simp [DAlu.putLong, accJoin, ext48]
  · obtain ⟨hi, lo, u, hread, hwords⟩ := readLong_ok hm l
    refine ⟨hi, lo, u, hread, fun ea a w hw => ?_, fun aa => ?_, hwords⟩
    · refine ⟨_, moveOnly_ok (mv := .lEa .toMem ea l) (runMove_lEa_store hread hw), rfl, fun sp' a' hne => ?_⟩
      rw [peek_advance, peek_storeLong hne, peek_of_store ((store_resolve hw).trans (store_readLong hread))]
    · exact moveOnly_ok (mv := .lAa .toMem aa l) (runMove_lAa_store aa hread)

/-! ### Class I and double moves (R375, R376, R379) -/

theorem otherBank_eq {rx ky : BitVec 3} {ry : BitVec 2} (h : ky.toNat = (if rx.toNat < 4 then 4 else 0) + ry.toNat) :
    otherBank rx ry = ky := by
  have hbank : ∀ (rx : BitVec 3) (ry : BitVec 2),
      (otherBank rx ry).toNat = (if rx.toNat < 4 then 4 else 0) + ry.toNat := by decide
  exact BitVec.eq_of_toNat_eq ((hbank rx ry).trans h.symm)

section Double
variable {s t u u1 u2 : State} {wx wy : Dir} {ee : XReg} {ff : YReg} {ix iy : Ind} {ax ay : Addr} {vx vy : Word}

/-- One side's word, from memory or from its register. -/
theorem fetchSide_ok {sp : DSpace} {w : Dir} {r : DReg} {a : Addr} {v : Word}
    (h : w = .toReg ∧ s.loadData sp a = (v, t) ∨ w = .toMem ∧ s.readD r = .ok (v, t)) :
    s.fetchSide sp w (.d r) a = .ok (v, t) := by
  rcases h with ⟨rfl, h⟩ | ⟨rfl, h⟩
  · exact congrArg Except.ok h
  · exact h

theorem moveXY_ok (hx : s.resolveInd ix = .ok (ax, t)) (hy : t.resolveInd iy = .ok (ay, u))
    (hvx : u.fetchSide .x wx (.d ee.toDReg) ax = .ok (vx, u1))
    (hvy : u1.fetchSide .y wy (.d ff.toDReg) ay = .ok (vy, u2)) :
    s.moveXY wx ee ix wy ff iy =
      .ok ((u2.storeSide .x wx (.d ee.toDReg) ax vx).storeSide .y wy (.d ff.toDReg) ay vy) := by
  rw [State.moveXY, hx]
  simp only [hy, hvx, hvy]

end Double

/-- Settles O40: class I is the limited accumulator beside a move's piece; a double move is `moveXY_ok`. -/
theorem classOneAndDoubleMoves : Obligations.ClassOneAndDoubleMoves := by
  refine ⟨fun s w m d hm => ⟨fun ee x f hx => ?_, fun e ff x hx => ?_⟩, ?_⟩
  · have hmove : s.runMove (.xr ee x d f) = .ok (w.writeD f.toDReg (limit24 m (s.acc d))) := by
      rw [State.runMove, readLimited_ok hm]
      simp only [hx]
    cases f <;> exact moveOnly_ok hmove
  · have hmove : s.runMove (.ry d e ff x) = .ok (w.writeD e.toDReg (limit24 m (s.acc d))) := by
      rw [State.runMove, readLimited_ok hm]
      simp only [hx]
    cases e <;> exact moveOnly_ok hmove
  · intro s t u u1 u2 wx wy ee ff mx my rx ry ky ax ay vx vy hky hx hy hvx hvy
    have hmove := moveXY_ok (iy := ⟨my.toAguMode, ky⟩) hx hy (fetchSide_ok hvx) (fetchSide_ok hvy)
    rw [← otherBank_eq hky] at hmove
    have hexec := moveOnly_ok (mv := .xy wx ee mx rx wy ff my ry) hmove
    cases wx <;> cases wy <;> exact hexec

/-! ### Class II moves (R377, R378) -/

theorem writeD_acc (d : Acc) (w : Word) (s : State) : s.writeD d.toDReg w = s.setAcc d (ext24 w) := by
  cases d <;> rfl

/-- A word stored, and a fraction written to the accumulator. -/
theorem stored_and_written {s w : State} {i : Instr} {sp : DSpace} {a : Addr} {v x : Word} {n : Nat} (d : Acc)
    (hstore : w.store = s.store) (h : exec i s = .next (((w.storeData sp a v).writeD d.toDReg x).advance n)) :
    ∃ t, exec i s = .next t ∧ t = ((w.storeData sp a v).setAcc d (t.acc d)).advance n ∧
      (t.acc d).toInt = x.toInt * 2 ^ 24 ∧ (isIo a = false → t.peek sp.toSpace a = v) ∧
      ∀ sp' a', (sp', a') ≠ (sp.toSpace, a) → t.peek sp' a' = s.peek sp' a' := by
  rw [writeD_acc] at h
  refine ⟨_, h, ?_, ?_, ?_⟩
  · rw [advance_setAcc_acc]
  · rw [advance_setAcc_acc, ext24_toInt]
  · have hsame : (((w.storeData sp a v).setAcc d (ext24 x)).advance n).store =
        ((w.storeData sp a v).advance n).store := by simp only [store_advance, store_setAcc]
    simp only [peek_of_store hsame]
    exact peek_stored n hstore

/-- Settles O41: the store and the write of each form are `stored_and_written`. -/
theorem classTwoMoves : Obligations.ClassTwoMoves := by
  intro s w m d ea a hm hw
  have hstore : w.store = s.store := (store_resolve hw).trans (store_limited m (s.acc d) s)
  have hx : s.runMove (.xr2 d ea) = .ok ((w.storeData .x a (limit24 m (s.acc d))).writeD d.toDReg s.dalu.x0) := by
    rw [State.runMove, readLimited_ok hm]
    simp only [storeEa_ok _ hw]
  have hy : s.runMove (.ry2 d ea) = .ok ((w.storeData .y a (limit24 m (s.acc d))).writeD d.toDReg s.dalu.y0) := by
    rw [State.runMove, readLimited_ok hm]
    simp only [storeEa_ok _ hw]
  exact ⟨stored_and_written d hstore (moveOnly_ok hx), stored_and_written d hstore (moveOnly_ok hy)⟩

/-! ### MOVEM (R477) -/

section ProgramMemory
variable {s u w : State} {n : Nat} {r : Reg} {ea : Ea} {a : Addr} {v : Word}

theorem moveP_load (n : Nat) (r : Reg) (h : s.resolve ea = .ok (a, u)) :
    s.moveP n .toReg r ea = .ok (u.writeReg r (s.peek .p a)) := by
  rw [← peek_of_store (store_resolve h)]
  simp only [State.moveP, h]

theorem moveP_store (hr : s.readReg r = .ok (v, u)) (h : u.resolve ea = .ok (a, w)) :
    s.moveP n .toMem r ea = w.writeP n a v := by
  simp only [State.moveP, hr, h]

theorem writeP_ok (v : Word) (h : a ∉ s.prefetched n) : s.writeP n a v = .ok (s.poke .p a v) := if_neg h

theorem writeP_stops (v : Word) (h : a ∈ s.prefetched n) : s.writeP n a v = .error .prefetchWrite := if_pos h

/-- Outside REP and vectors the two words after the instruction are held already (20_memory.md R112). -/
theorem prefetched_plain (hvec : s.vec = none) (hrep : s.rep.repeating = false) :
    s.prefetched n = [s.ctl.pc + BitVec.ofNat 16 n, s.ctl.pc + BitVec.ofNat 16 n + 1] := by
  rw [State.prefetched, hrep, hvec]
  rfl

/-- A register to P memory, outside REP and vectors. -/
theorem moveP_store_plain (hr : s.readReg r = .ok (v, u)) (h : u.resolve ea = .ok (a, w)) (hplain : s.plain = true) :
    (a = s.ctl.pc + BitVec.ofNat 16 n ∨ a = s.ctl.pc + BitVec.ofNat 16 n + 1 →
      s.moveP n .toMem r ea = .error .prefetchWrite) ∧
    (a ≠ s.ctl.pc + BitVec.ofNat 16 n → a ≠ s.ctl.pc + BitVec.ofNat 16 n + 1 →
      s.moveP n .toMem r ea = .ok (w.poke .p a v)) := by
  have hplace : w.place = s.place := (place_resolve h).trans (place_readReg hr)
  have hrep : w.rep = s.rep := ((Effect.resolve h).hidden.2.2.2.2.2).trans ((Effect.readReg hr).hidden.2.2.2.2.2)
  have hpc : w.ctl.pc = s.ctl.pc := congrArg Prod.fst hplace
  simp only [State.plain, Bool.and_eq_true, Option.isNone_iff_eq_none, Bool.not_eq_true'] at hplain
  obtain ⟨hvec, hrepeat⟩ := hplain
  have hheld := prefetched_plain (n := n) ((congrArg Prod.snd hplace).trans hvec) (hrep ▸ hrepeat)
  rw [hpc] at hheld
  rw [moveP_store hr h]
  refine ⟨fun ha => writeP_stops v ?_, fun h1 h2 => writeP_ok v ?_⟩
  · simpa [hheld] using ha
  · simpa only [hheld, List.mem_cons, List.not_mem_nil, or_false, not_or] using ⟨h1, h2⟩

theorem exec_movepP_store {ps : DSpace} {pp : BitVec 6} (h : (s.loadData ps (ioAddr pp)).2.resolve ea = .ok (a, u)) :
    exec (.movepP ps pp .toMem ea) s =
      endMove (1 + ea.extra) (u.writeP (1 + ea.extra) a (s.loadData ps (ioAddr pp)).1) := by
  change execMovepP ps pp .toMem ea s = _
  simp only [execMovepP, h]

end ProgramMemory

/-- Settles O43: MOVEM is `State.moveP`, MOVEP a word between the I/O location and its operand. -/
theorem programMemoryAndPeripheralMoves : Obligations.ProgramMemoryAndPeripheralMoves := by
  refine ⟨fun s i j len ea r hform => ?_, fun s ps pp => ?_⟩
  · have hexec : exec i s = endMove len (s.moveP len .toReg r ea) ∧
        exec j s = endMove len (s.moveP len .toMem r ea) := by
      rcases hform with ⟨rfl, rfl, rfl⟩ | ⟨aa, rfl, rfl, rfl, rfl⟩ <;> exact ⟨rfl, rfl⟩
    obtain ⟨hload, hstore⟩ := hexec
    rw [hload, hstore]
    refine ⟨fun a u h => endMove_ok (moveP_load len r h), fun v u w a hr hw hplain => ?_⟩
    obtain ⟨hstop, hok⟩ := moveP_store_plain (n := len) hr hw hplain
    refine ⟨fun ha => by rw [hstop ha]; rfl, fun h1 h2 => ⟨_, endMove_ok (hok h1 h2), rfl, ?_⟩⟩
    exact peek_poked len ((store_resolve hw).trans (store_readReg hr))
  · simp only [← ioAddr_eq]
    refine ⟨fun es ea a u h => ⟨endMove_ok ?_, endMove_ok ?_⟩, fun es v => rfl,
      fun es ea a u h => ⟨endMove_ok (storeEa_ok _ h), fun ha => ?_, fun ha => ?_⟩,
      fun r v u h => endMove_ok ?_, fun r => rfl⟩
    · simp only [loadEa_mem h]
    · rw [h, ← peek_of_store (store_resolve h)]
    · rw [exec_movepP_store h, writeP_ok _ ha]
      rfl
    · rw [exec_movepP_store h, writeP_stops _ ha]
      rfl
    · rw [h]

end Sys2Proof.Machine
end

section
/-! INC, DEC, one step of DIV, and one step of NORM (47_nonparallel_encoding_only.md R451 to R454). -/

namespace Sys2Proof.Machine

section Steps
variable {s : State} {m : ScaleMode}

/-! ### INC and DEC (R451, R452) -/

/-- An operation without a move is one whose move field is empty. -/
theorem aluOnly_eq_parallel (alu : State → Except Fault AluOut) (s : State) :
    aluOnly alu s = parallel alu .none s := by
  rw [aluOnly, parallel]
  cases alu s <;> rfl

theorem toInt_bounds (v : AccVal) : -2 ^ 55 ≤ v.toInt ∧ v.toInt < 2 ^ 55 :=
  ⟨BitVec.le_toInt v, BitVec.toInt_lt⟩

/-- One more overflows from the greatest value alone. -/
theorem overflow56_succ (v : AccVal) : overflow56 (v.toInt + 1) = decide (v.toInt = 2 ^ 55 - 1) := by
  have := toInt_bounds v
  rw [overflow56, decide_eq_decide]
  omega

/-- One less overflows from the least value alone. -/
theorem overflow56_pred (v : AccVal) : overflow56 (v.toInt - 1) = decide (v.toInt = -2 ^ 55) := by
  have := toInt_bounds v
  rw [overflow56, decide_eq_decide]
  omega

theorem carry_succ (v : AccVal) : decide (2 ^ 56 ≤ v.toNat + 1) = decide (v.toInt = -1) := by
  have := v.isLt
  rw [decide_eq_decide, BitVec.toInt_eq_toNat_cond]
  split <;> omega

theorem borrow_pred (v : AccVal) : decide (v.toNat < 1) = decide (v.toInt = 0) := by
  have := v.isLt
  rw [decide_eq_decide, BitVec.toInt_eq_toNat_cond]
  split <;> omega

theorem exec_inc (d : Acc) (hs : s.srLegal = true) (hm : s.scale = .ok m) :
    ∃ t, exec (.inc d) s = .next t ∧ aluFrame (some d) 1 s t ∧
      t.acc d = BitVec.ofInt 56 ((s.acc d).toInt + 1) ∧
      t.ccr = arithCcr m s.ccr (t.acc d) (decide ((s.acc d).toInt = 2 ^ 55 - 1)) (decide ((s.acc d).toInt = -1)) := by
  obtain ⟨t, ht, hframe, hacc, hccr⟩ :=
    parallel_add (mv := .none) d (·.acc d) (fun _ => 1) (fun _ => false) hs hm rfl
  refine ⟨t, (aluOnly_eq_parallel ..).trans ht, hframe, ?_, ?_⟩
  · simpa using hacc
  · rw [← overflow56_succ, ← carry_succ]
    simpa using hccr

theorem exec_dec (d : Acc) (hs : s.srLegal = true) (hm : s.scale = .ok m) :
    ∃ t, exec (.dec d) s = .next t ∧ aluFrame (some d) 1 s t ∧
      t.acc d = BitVec.ofInt 56 ((s.acc d).toInt - 1) ∧
      t.ccr = arithCcr m s.ccr (t.acc d) (decide ((s.acc d).toInt = -2 ^ 55)) (decide ((s.acc d).toInt = 0)) := by
  obtain ⟨t, ht, hframe, hacc, hccr⟩ :=
    parallel_sub (mv := .none) d (·.acc d) (fun _ => 1) (fun _ => false) hs hm rfl
  refine ⟨t, (aluOnly_eq_parallel ..).trans ht, hframe, ?_, ?_⟩
  · simpa using hacc
  · rw [← overflow56_pred, ← borrow_pred]
    simpa using hccr

/-! ### DIV (R453) -/

/-- The accumulator doubled with the bit brought in below. -/
theorem shiftIn_eq_ofInt (v : AccVal) (c : Bool) :
    v.extractLsb' 0 55 ++ BitVec.ofBool c = BitVec.ofInt 56 (2 * v.toInt + c.toNat) := by
  have hc : c.toNat < 2 := c.toNat_lt
  have hlow : (v.extractLsb' 0 55).toNat = v.toNat % 2 ^ 55 := by
    rw [BitVec.extractLsb'_toNat, Nat.shiftRight_zero]
  refine BitVec.eq_of_toNat_eq ?_
  rw [BitVec.toNat_append, BitVec.toNat_ofBool, ← Nat.shiftLeft_add_eq_or_of_lt (i := 1) hc, Nat.shiftLeft_eq, hlow,
    BitVec.toNat_ofInt, BitVec.toInt_eq_toNat_cond]
  split <;> omega

/-- The accumulator after one step: doubled, and the divisor added where the signs differ, else taken away. -/
def divResult (w : WReg) (d : Acc) (s : State) : AccVal :=
  if (s.acc d).getLsbD 55 ^^ (s.dalu.word w).getLsbD 23
  then (s.acc d).extractLsb' 0 55 ++ BitVec.ofBool s.ccr.c + ext24 (s.dalu.word w)
  else (s.acc d).extractLsb' 0 55 ++ BitVec.ofBool s.ccr.c - ext24 (s.dalu.word w)

theorem exec_divStep (w : WReg) (d : Acc) (hs : s.srLegal = true) (hm : s.scale = .ok m) :
    ∃ t, exec (.divStep w d) s = .next t ∧ aluFrame (some d) 1 s t ∧
      t.acc d = BitVec.ofInt 56 (if (s.acc d).getLsbD 55 != (s.dalu.word w).getLsbD 23
        then 2 * (s.acc d).toInt + s.ccr.c.toNat + (s.dalu.word w).toInt * 2 ^ 24
        else 2 * (s.acc d).toInt + s.ccr.c.toNat - (s.dalu.word w).toInt * 2 ^ 24) ∧
      t.ccr = s.ccr.update { v := some (aslV (s.acc d)), c := some (!(t.acc d).getLsbD 55) } := by
  obtain ⟨t, ht, hframe, hacc, hccr⟩ :=
    parallel_acc (mv := .none) d (fun _ => divResult w d)
      (fun _ s => { v := some (aslV (s.acc d)), c := some (!(divResult w d s).getLsbD 55) }) hs hm rfl
  refine ⟨t, (aluOnly_eq_parallel ..).trans ht, hframe, ?_, ?_⟩
  · rw [hacc, Bool.bne_eq_xor]
    simp only [divResult, shiftIn_eq_ofInt, ext24_eq_ofInt]
    split
    · exact (BitVec.ofInt_add ..).symm
    · exact (ofInt_sub ..).symm
  · rw [hccr, hacc]

/-! ### NORM (R454) -/

theorem setR_putAlu (o : AluOut) (k : BitVec 3) (a : Addr) (s : State) :
    (s.putAlu o).setR k a = (s.setR k a).putAlu o := by
  rw [State.putAlu, State.putAlu]
  cases o.dst <;> cases o.flags <;> rfl

/-- What a step of NORM writes: the accumulator, and the flags with C kept. -/
theorem norm_writes (m : ScaleMode) (d : Acc) (r : AccVal) (v : Bool) {u : State} (hs : u.srLegal = true) :
    aluFrame (some d) 1 u ((u.putAlu (keepC d r v m)).advance 1) ∧
    ((u.putAlu (keepC d r v m)).advance 1).acc d = r ∧
    ((u.putAlu (keepC d r v m)).advance 1).ccr = arithCcr m u.ccr r v u.ccr.c := by
  rw [keepC, putAlu_acc hs]
  obtain ⟨hframe, hacc⟩ := aluFrame_acc 1 d r (u.ccr.update (arithFlags m r v none)) u
  refine ⟨hframe, hacc, ?_⟩
  rw [ccr_withResult, update_arithFlags_keep]

/-- The step by E, U and Z. -/
theorem execNorm_eq (k : BitVec 3) (d : Acc) (hm : s.scale = .ok m) :
    execNorm k d s =
      if !s.ccr.e && s.ccr.u && !s.ccr.z then
        .next (((s.setR k (s.rReg k - 1)).putAlu (keepC d (asl1 (s.acc d)) (aslV (s.acc d)) m)).advance 1)
      else if s.ccr.e then
        .next (((s.setR k (s.rReg k + 1)).putAlu (keepC d (asr1 (s.acc d)) false m)).advance 1)
      else .next ((s.putAlu (keepC d (s.acc d) false m)).advance 1) := by
  simp only [execNorm, hm, setR_putAlu]

end Steps

/-- Settles O35: each step is a class P operation with an empty move field (`aluOnly_eq_parallel`). -/
theorem countAndDivideSteps : Obligations.CountAndDivideSteps := by
  refine ⟨fun s m d hs hm => ⟨exec_inc d hs hm, exec_dec d hs hm⟩, fun s m w d hs hm => ?_⟩
  obtain ⟨t, ht, hframe, hacc, hccr⟩ := exec_divStep w d hs hm
  refine ⟨t, ht, hframe, hacc, ?_⟩
  rw [hccr, aslV, ← Bool.bne_eq_xor]
  rfl

/-- Settles O36: the three branches of NORM (`execNorm_eq`), each of which writes its result (`norm_writes`). -/
theorem normalizeStep : Obligations.NormalizeStep := by
  intro s m k d hs hm
  have hexec : exec (.norm k d) s = execNorm k d s := rfl
  rw [hexec, execNorm_eq k d hm]
  by_cases hleft : (!s.ccr.e && s.ccr.u && !s.ccr.z) = true
  · obtain ⟨hframe, hacc, hccr⟩ :=
      norm_writes m d (asl1 (s.acc d)) (aslV (s.acc d)) (u := s.setR k (s.rReg k - 1)) hs
    refine ⟨_, aslV (s.acc d), if_pos hleft, ?_, ?_, ?_, ?_⟩
    · rw [hacc]
      exact hccr
    · exact fun _ _ _ => ⟨hframe, hacc.trans (asl1_eq_ofInt _), by rw [aslV, Bool.bne_eq_xor]⟩
    · exact fun he => by simp [he] at hleft
    · exact fun he h => by rcases h with h | h <;> simp [he, h] at hleft
  rw [if_neg hleft]
  cases he : s.ccr.e with
  | true =>
    obtain ⟨hframe, hacc, hccr⟩ := norm_writes m d (asr1 (s.acc d)) false (u := s.setR k (s.rReg k + 1)) hs
    refine ⟨_, false, if_pos rfl, ?_, by simp, fun _ => ⟨hframe, ?_, rfl⟩, by simp⟩
    · rw [hacc]
      exact hccr
    · rw [hacc, asr1_toInt]
  | false =>
    obtain ⟨hframe, hacc, hccr⟩ := norm_writes m d (s.acc d) false hs
    refine ⟨_, false, if_neg (by simp), ?_, ?_, by simp, fun _ _ => ⟨hframe, hacc, rfl⟩⟩
    · rw [hacc]
      exact hccr
    · exact fun _ hu hz => by simp [he, hu, hz] at hleft

end Sys2Proof.Machine
end

section
/-! When a move field completes, and what it does to S and L (45_parallel_moves.md R360 to R379; 10_state.md R35,
R66). -/

namespace Sys2Proof.Machine

/-! ### Address arithmetic that is defined (20_memory.md R120) -/

section Defined
variable {s t : State} {inds : List Ind} {ea : Ea} {x : Xfer} {j : Ind}

/-- The address arithmetic of these operands is defined. -/
def Defined (inds : List Ind) (s : State) : Prop := ∀ j ∈ inds, ∃ a, s.stepped j.mode j.reg = .ok a

/-- Address arithmetic reads the AGU alone. -/
theorem stepped_congr (h : t.agu = s.agu) (mode : AguMode) (k : BitVec 3) : t.stepped mode k = s.stepped mode k := by
  simp only [State.stepped, State.rReg, State.nReg, State.mReg, h]

theorem Defined.congr (h : Defined inds s) (hagu : t.agu = s.agu) : Defined inds t := fun j hj => by
  rw [stepped_congr hagu]
  exact h j hj

/-- An update of one Rn leaves the arithmetic of the others. -/
theorem stepped_setR {k k' : BitVec 3} (h : k' ≠ k) (v : Addr) (mode : AguMode) (s : State) :
    (s.setR k v).stepped mode k' = s.stepped mode k' := by
  have hr : (s.setR k v).rReg k' = s.rReg k' :=
    Vector.getElem_set_ne k.isLt k'.isLt fun hk => h (BitVec.eq_of_toNat_eq hk.symm)
  have hn : (s.setR k v).nReg k' = s.nReg k' := rfl
  have hm : (s.setR k v).mReg k' = s.mReg k' := rfl
  rw [State.stepped, State.stepped, hr, hn, hm]

theorem resolveInd_defined (h : ∃ a, s.stepped j.mode j.reg = .ok a) : ∃ a t, s.resolveInd j = .ok (a, t) := by
  obtain ⟨b, hb⟩ := h
  rcases j with ⟨mode, k⟩
  simp only [State.resolveInd, hb]
  cases mode <;> exact ⟨_, _, rfl⟩

theorem resolve_defined (h : Defined (eaInds ea) s) : ∃ a t, s.resolve ea = .ok (a, t) := by
  cases ea with
  | ind j => exact resolveInd_defined (h j (List.mem_singleton_self j))
  | abs a => exact ⟨a, s, rfl⟩

end Defined

/-! ### Reads through the limiter (10_state.md R35, R66) -/

/-- `t` is a state after reads of these accumulators through the limiter in `s`: L is kept and set where one limits,
and S, where the part has it, goes through `S_BIT_FN` at each read. -/
structure LimiterFlags (m : ScaleMode) (ds : List Acc) (s t : State) : Prop where
  l : t.ccr.l = (s.ccr.l || ds.any fun d => extInUse m (s.acc d))
  s : (s.plat.hasSBit && t.ccr.s) =
    (s.plat.hasSBit && ds.foldl (fun b d => s.plat.sBitFn.next b m (s.acc d)) s.ccr.s)

/-- `t` is the state after those reads and nothing else that a later read sees. -/
structure LimiterReads (m : ScaleMode) (ds : List Acc) (s t : State) : Prop where
  dalu : t.dalu = s.dalu
  agu : t.agu = s.agu
  plat : t.plat = s.plat
  scale : t.scale = .ok m
  flags : LimiterFlags m ds s t

section Reads
variable {s t u : State} {m : ScaleMode} {ds es : List Acc} {v : Word}

/-- The flags are bits of SR. -/
theorem LimiterFlags.of_sr (h : LimiterFlags m ds s t) (hsr : u.ctl.sr = t.ctl.sr) : LimiterFlags m ds s u := by
  have hccr : u.ccr = t.ccr := congrArg ccrOf hsr
  exact ⟨hccr ▸ h.l, hccr ▸ h.s⟩

/-- What precedes the reads and leaves SR, the accumulators and the part alone does not count. -/
theorem LimiterFlags.of_start (h : LimiterFlags m ds u t) (hsr : u.ctl.sr = s.ctl.sr) (hdalu : u.dalu = s.dalu)
    (hplat : u.plat = s.plat) : LimiterFlags m ds s t := by
  have hccr : u.ccr = s.ccr := congrArg ccrOf hsr
  have hacc (d : Acc) : u.acc d = s.acc d := congrArg (DAlu.acc d) hdalu
  obtain ⟨hl, hs⟩ := h
  simp only [hccr, hacc, hplat] at hl hs
  exact ⟨hl, hs⟩

theorem LimiterReads.of_same (hm : s.scale = .ok m) (hsr : t.ctl.sr = s.ctl.sr) (hdalu : t.dalu = s.dalu)
    (hagu : t.agu = s.agu) (hplat : t.plat = s.plat) : LimiterReads m [] s t := by
  have hccr : t.ccr = s.ccr := congrArg ccrOf hsr
  have hscale : t.scale = s.scale := congrArg scaleOf hsr
  exact ⟨hdalu, hagu, hplat, hscale.trans hm, ⟨by simp [hccr], by simp [hccr]⟩⟩

theorem LimiterReads.refl (hm : s.scale = .ok m) : LimiterReads m [] s s := .of_same hm rfl rfl rfl rfl

/-- Reads in turn. -/
theorem LimiterReads.then_flags (h : LimiterReads m ds s t) (h' : LimiterFlags m es t u) :
    LimiterFlags m (ds ++ es) s u := by
  have hacc (d : Acc) : t.acc d = s.acc d := congrArg (DAlu.acc d) h.dalu
  obtain ⟨hl, hs⟩ := h'
  simp only [hacc, h.plat] at hl hs
  refine ⟨?_, ?_⟩
  · rw [hl, h.flags.l, List.any_append, Bool.or_assoc]
  · rw [hs, List.foldl_append]
    cases hbit : s.plat.hasSBit with
    | false => rfl
    | true =>
      have hfirst := h.flags.s
      simp only [hbit, Bool.true_and] at hfirst
      rw [hfirst]

theorem LimiterReads.trans (h : LimiterReads m ds s t) (h' : LimiterReads m es t u) :
    LimiterReads m (ds ++ es) s u :=
  ⟨h'.dalu.trans h.dalu, h'.agu.trans h.agu, h'.plat.trans h.plat, h'.scale, h.then_flags h'.flags⟩

theorem limiterReads_limited (hm : s.scale = .ok m) (d : Acc) : LimiterReads m [d] s (s.limited m (s.acc d)) := by
  obtain ⟨hl, hs⟩ := ccr_setCcr_sl
    { s.ccr with s := s.plat.sBitFn.next s.ccr.s m (s.acc d), l := s.ccr.l || extInUse m (s.acc d) } s
  refine ⟨rfl, rfl, rfl, (scale_limited m (s.acc d) s).trans hm, ⟨?_, ?_⟩⟩
  · refine hl.trans ?_
    simp
  · have hs' : (s.limited m (s.acc d)).ccr.s = (s.plat.hasSBit && s.plat.sBitFn.next s.ccr.s m (s.acc d)) := hs
    rw [hs', ← Bool.and_assoc, Bool.and_self]
    rfl

/-- A register of a move field as its source. -/
theorem readReg_reads (hm : s.scale = .ok m) (r : Reg5) :
    ∃ v t, s.readReg r.toReg = .ok (v, t) ∧ LimiterReads m (moveReads.regReads r.toReg) s t := by
  cases r with
  | d x =>
    cases x
    case a => exact ⟨_, _, readLimited_ok hm .a, limiterReads_limited hm .a⟩
    case b => exact ⟨_, _, readLimited_ok hm .b, limiterReads_limited hm .b⟩
    all_goals exact ⟨_, _, rfl, .refl hm⟩
  | r k | n k => exact ⟨_, _, rfl, .refl hm⟩

/-- The accumulators an L: operand reads through the limiter. -/
abbrev longReads (l : LOp) : List Acc := moveReads (.lAa .toMem 0 l)

theorem readLong_reads (hm : s.scale = .ok m) (l : LOp) :
    ∃ v t, s.readLong l = .ok (v, t) ∧ LimiterReads m (longReads l) s t := by
  have hboth (d e : Acc) : LimiterReads m [d, e] s ((s.limited m (s.acc d)).limited m (s.acc e)) := by
    have hfirst := limiterReads_limited hm d
    exact hfirst.trans (limiterReads_limited hfirst.scale e)
  cases l with
  | a10 | b10 | x | y => exact ⟨_, _, rfl, .refl hm⟩
  | a => exact ⟨_, _, readAcc_ok hm .a, limiterReads_limited hm .a⟩
  | b => exact ⟨_, _, readAcc_ok hm .b, limiterReads_limited hm .b⟩
  | ab => exact ⟨_, _, readBoth_ok hm .a .b, hboth .a .b⟩
  | ba => exact ⟨_, _, readBoth_ok hm .b .a, hboth .b .a⟩

end Reads

/-! ### What a move does, given its scaling mode and its operands -/

/-- What a piece of a move does: it completes where the address arithmetic of its operands is defined, and of the flags
it changes S and L by its reads. -/
structure MoveOutcome (m : ScaleMode) (inds : List Ind) (ds : List Acc) (s : State) (q : Except Fault State) :
    Prop where
  completes : Defined inds s → ∃ u, q = .ok u
  flags : ∀ u, q = .ok u → LimiterFlags m ds s u

namespace MoveOutcome
variable {m : ScaleMode} {inds : List Ind} {ds es : List Acc} {s t u : State} {q : Except Fault State} {ea : Ea}

/-- A piece that always completes. -/
theorem of_ok (hq : q = .ok u) (h : LimiterFlags m ds s u) : MoveOutcome m inds ds s q :=
  ⟨fun _ => ⟨u, hq⟩, fun w hw => by
    rw [hq] at hw
    cases hw
    exact h⟩

/-- A piece after reads that only the flags show. -/
theorem after_reads (h : LimiterReads m ds s t) (h' : MoveOutcome m inds es t q) :
    MoveOutcome m inds (ds ++ es) s q :=
  ⟨fun hd => h'.completes (hd.congr h.agu), fun u hu => h.then_flags (h'.flags u hu)⟩

/-- A piece that ends with a write outside SR. -/
theorem then_write {q' : Except Fault State} (h : MoveOutcome m inds ds s q)
    (hok : ∀ u, q = .ok u → ∃ w, q' = .ok w ∧ w.ctl.sr = u.ctl.sr) (herr : ∀ e, q = .error e → q' = .error e) :
    MoveOutcome m inds ds s q' := by
  refine ⟨fun hd => ?_, fun w hw => ?_⟩
  · obtain ⟨u, hu⟩ := h.completes hd
    obtain ⟨w, hw, -⟩ := hok u hu
    exact ⟨w, hw⟩
  · cases hq : q with
    | error e => simp [herr e hq] at hw
    | ok u =>
      obtain ⟨w', hw', hsr⟩ := hok u hq
      rw [hw'] at hw
      cases hw
      exact (h.flags u hq).of_sr hsr

/-- A piece that uses an effective address and then writes outside SR. -/
theorem of_resolve (hm : s.scale = .ok m)
    (hok : ∀ a t, s.resolve ea = .ok (a, t) → ∃ u, q = .ok u ∧ u.ctl.sr = t.ctl.sr)
    (herr : ∀ e, s.resolve ea = .error e → q = .error e) : MoveOutcome m (eaInds ea) [] s q := by
  refine ⟨fun hd => ?_, fun u hu => ?_⟩
  · obtain ⟨a, t, h⟩ := resolve_defined hd
    obtain ⟨u, hu, -⟩ := hok a t h
    exact ⟨u, hu⟩
  · cases hr : s.resolve ea with
    | error e => simp [herr e hr] at hu
    | ok p =>
      obtain ⟨u', hu', hsr⟩ := hok p.1 p.2 hr
      rw [hu'] at hu
      cases hu
      exact (LimiterReads.refl hm).flags.of_sr (hsr.trans (congrArg Ctl.sr (resolve_ctl hr)))

end MoveOutcome

/-! ### Writes outside SR -/

section Writes
variable (s : State)

theorem writeReg_ctl (r : Reg5) (w : Word) : (s.writeReg r.toReg w).ctl = s.ctl := by cases r <;> rfl

theorem loadData_ctl (sp : DSpace) (a : Addr) : (s.loadData sp a).2.ctl = s.ctl := by rw [loadData_state]

theorem storeData_ctl (sp : DSpace) (a : Addr) (v : Word) : (s.storeData sp a v).ctl = s.ctl := by
  rw [storeData_state]

theorem loadLong_ctl (a : Addr) (l : LOp) : (s.loadLong a l).ctl = s.ctl :=
  (loadData_ctl _ .y a).trans (loadData_ctl s .x a)

theorem storeLong_ctl (a : Addr) (v : Word × Word) : (s.storeLong a v).ctl = s.ctl :=
  (storeData_ctl _ .y a v.2).trans (storeData_ctl s .x a v.1)

theorem storeSide_ctl (sp : DSpace) (w : Dir) (x : DReg) (a : Addr) (v : Word) :
    (s.storeSide sp w (.d x) a v).ctl = s.ctl := by
  cases w with
  | toReg => rfl
  | toMem => exact storeData_ctl s sp a v

end Writes

/-! ### The pieces -/

section Pieces
variable {m : ScaleMode} {s : State}

theorem storeEa_outcome (hm : s.scale = .ok m) (sp : DSpace) (ea : Ea) (v : Word) :
    MoveOutcome m (eaInds ea) [] s (s.storeEa sp ea v) := by
  refine .of_resolve hm (fun a t h => ⟨_, storeEa_ok v h, congrArg Ctl.sr (storeData_ctl t sp a v)⟩) fun e h => ?_
  rw [State.storeEa, h]

/-- The accumulators a transfer reads through the limiter. -/
abbrev xferReads (x : Xfer) (r : Reg) : List Acc :=
  match x with
  | .toReg _ => []
  | .toMem _ => moveReads.regReads r

theorem moveEa_outcome (hm : s.scale = .ok m) (sp : DSpace) (x : Xfer) (r : Reg5) :
    MoveOutcome m (xferInds x) (xferReads x r.toReg) s (s.moveEa sp x r.toReg) := by
  match x with
  | .toReg (.imm v) =>
    exact .of_ok (moveEa_imm sp r.toReg v s) ((LimiterReads.refl hm).flags.of_sr (congrArg Ctl.sr (writeReg_ctl s r v)))
  | .toReg (.mem ea) =>
    refine .of_resolve hm (fun a t h => ⟨_, moveEa_load r.toReg h, ?_⟩) fun e h => ?_
    · rw [writeReg_ctl, loadData_ctl]
    · rw [State.moveEa, State.loadEa, h]
  | .toMem ea =>
    obtain ⟨v, t, hv, hreads⟩ := readReg_reads hm r
    have hmove : s.moveEa sp (.toMem ea) r.toReg = t.storeEa sp ea v := by rw [State.moveEa, hv]
    have hout := MoveOutcome.after_reads hreads (storeEa_outcome hreads.scale sp ea v)
    rw [List.append_nil] at hout
    rw [hmove]
    exact hout

theorem moveAt_outcome (hm : s.scale = .ok m) (sp : DSpace) (w : Dir) (aa : BitVec 6) (r : Reg5) :
    MoveOutcome m [] (if w = .toMem then moveReads.regReads r.toReg else []) s
      (s.moveAt sp w (shortAddr aa) r.toReg) := by
  cases w with
  | toReg =>
    exact .of_ok (moveAt_load sp r.toReg aa s)
      ((LimiterReads.refl hm).flags.of_sr (congrArg Ctl.sr (writeReg_ctl s r _)))
  | toMem =>
    obtain ⟨v, t, hv, hreads⟩ := readReg_reads hm r
    exact .of_ok (moveAt_store sp aa hv) (hreads.flags.of_sr rfl)

theorem moveLongEa_outcome (hm : s.scale = .ok m) (w : Dir) (ea : Ea) (l : LOp) :
    MoveOutcome m (eaInds ea) (moveReads (.lEa w ea l)) s (s.runMove (.lEa w ea l)) := by
  cases w with
  | toReg =>
    refine .of_resolve hm (fun a t h => ⟨_, runMove_lEa_load h, congrArg Ctl.sr (loadLong_ctl t a l)⟩) fun e h => ?_
    rw [State.runMove, h]
  | toMem =>
    obtain ⟨v, t, hv, hreads⟩ := readLong_reads hm l
    have hstore : MoveOutcome m (eaInds ea) [] t (s.runMove (.lEa .toMem ea l)) := by
      refine .of_resolve hreads.scale
        (fun a u h => ⟨_, runMove_lEa_store hv h, congrArg Ctl.sr (storeLong_ctl u a v)⟩) fun e h => ?_
      rw [State.runMove, hv]
      simp only [h]
    have hout := MoveOutcome.after_reads hreads hstore
    rw [List.append_nil] at hout
    exact hout

theorem moveLongAa_outcome (hm : s.scale = .ok m) (w : Dir) (aa : BitVec 6) (l : LOp) :
    MoveOutcome m [] (moveReads (.lAa w aa l)) s (s.runMove (.lAa w aa l)) := by
  cases w with
  | toReg => exact .of_ok rfl ((LimiterReads.refl hm).flags.of_sr (congrArg Ctl.sr (loadLong_ctl s _ l)))
  | toMem =>
    obtain ⟨v, t, hv, hreads⟩ := readLong_reads hm l
    exact .of_ok (runMove_lAa_store aa hv) (hreads.flags.of_sr rfl)

/-- The limited accumulator read before a piece of a move, and a write of a data-ALU register after it. -/
theorem beside_outcome (hm : s.scale = .ok m) {inds : List Ind} {es : List Acc} {d : Acc} {q : Except Fault State}
    (x : DReg) (w : Word) (h : MoveOutcome m inds es (s.limited m (s.acc d)) q) :
    MoveOutcome m inds (d :: es) s (q.map (State.writeD x w)) := by
  refine (MoveOutcome.after_reads (limiterReads_limited hm d) h).then_write (fun u hu => ?_) fun e he => ?_
  · rw [hu]
    exact ⟨_, rfl, rfl⟩
  · rw [he]
    rfl

theorem loadData_reads (hm : s.scale = .ok m) (sp : DSpace) (a : Addr) :
    LimiterReads m [] s (s.loadData sp a).2 :=
  .of_same hm (congrArg Ctl.sr (loadData_ctl s sp a)) (by rw [loadData_state]) (by rw [loadData_state])
    (by rw [loadData_state])

/-- One side's word: from memory, or from its register. -/
theorem fetchSide_reads (hm : s.scale = .ok m) (sp : DSpace) (w : Dir) (x : DReg) (a : Addr) :
    ∃ v t, s.fetchSide sp w (.d x) a = .ok (v, t) ∧
      LimiterReads m (if w = .toMem then moveReads.regReads (.d x) else []) s t := by
  cases w with
  | toReg => exact ⟨(s.loadData sp a).1, (s.loadData sp a).2, rfl, loadData_reads hm sp a⟩
  | toMem => exact readReg_reads hm (.d x)

/-- A double move that completes has both its addresses. -/
theorem moveXY_addresses {wx wy : Dir} {ee : XReg} {ff : YReg} {ix iy : Ind} {w : State}
    (h : s.moveXY wx ee ix wy ff iy = .ok w) :
    ∃ ax t ay u, s.resolveInd ix = .ok (ax, t) ∧ t.resolveInd iy = .ok (ay, u) := by
  rw [State.moveXY] at h
  split at h
  · cases h
  next ax t hx =>
    split at h
    · cases h
    next ay u hy => exact ⟨ax, t, ay, u, hx, hy⟩

/-- The accumulators one side of a double move reads through the limiter. -/
abbrev sideReads (w : Dir) (r : Reg) : List Acc := if w = .toMem then moveReads.regReads r else []

/-- A double move whose addresses are there: both reads in turn, then two writes outside SR. -/
theorem moveXY_reads (hm : s.scale = .ok m) (wx wy : Dir) (ee : XReg) (ff : YReg) {ix iy : Ind} {ax ay : Addr}
    {t u : State} (hx : s.resolveInd ix = .ok (ax, t)) (hy : t.resolveInd iy = .ok (ay, u)) :
    ∃ w, s.moveXY wx ee ix wy ff iy = .ok w ∧
      LimiterFlags m (sideReads wx (.d ee.toDReg) ++ sideReads wy (.d ff.toDReg)) s w := by
  have hagu : u = { s with agu := u.agu } := by
    rw [resolve_state (ea := .ind iy) hy, resolve_state (ea := .ind ix) hx]
  have hsr : u.ctl.sr = s.ctl.sr := by rw [hagu]
  have hscale : u.scale = .ok m := (congrArg scaleOf hsr).trans hm
  obtain ⟨vx, u1, hvx, hreads⟩ := fetchSide_reads hscale .x wx ee.toDReg ax
  obtain ⟨vy, u2, hvy, hreads'⟩ := fetchSide_reads hreads.scale .y wy ff.toDReg ay
  refine ⟨_, moveXY_ok hx hy hvx hvy, LimiterFlags.of_start ?_ hsr (by rw [hagu]) (by rw [hagu])⟩
  refine (hreads.trans hreads').flags.of_sr (congrArg Ctl.sr ?_)
  rw [storeSide_ctl, storeSide_ctl]

/-- A double move, whose two address registers differ: the second address is defined where it was at the start. -/
theorem moveXY_outcome (hm : s.scale = .ok m) (wx wy : Dir) (ee : XReg) (ff : YReg) {ix iy : Ind}
    (hne : iy.reg ≠ ix.reg) :
    MoveOutcome m [ix, iy] (sideReads wx (.d ee.toDReg) ++ sideReads wy (.d ff.toDReg)) s
      (s.moveXY wx ee ix wy ff iy) := by
  refine ⟨fun hd => ?_, fun w hw => ?_⟩
  · obtain ⟨ax, t, hx⟩ := resolveInd_defined (hd ix (by simp))
    have hsame : t.stepped iy.mode iy.reg = s.stepped iy.mode iy.reg := by
      rcases resolveInd_state hx with rfl | ⟨v, rfl⟩
      · rfl
      · exact stepped_setR hne v iy.mode s
    obtain ⟨ay, u, hy⟩ := resolveInd_defined (s := t) (j := iy) (by rw [hsame]; exact hd iy (by simp))
    obtain ⟨w, hw, -⟩ := moveXY_reads hm wx wy ee ff hx hy
    exact ⟨w, hw⟩
  · obtain ⟨ax, t, ay, u, hx, hy⟩ := moveXY_addresses hw
    obtain ⟨w', hw', hflags⟩ := moveXY_reads hm wx wy ee ff hx hy
    rw [hw'] at hw
    cases hw
    exact hflags

end Pieces

/-! ### The move field (R368 to R379) -/

theorem moveReads_xEa (x : Xfer) (r : Reg5) : moveReads (.xEa x r) = xferReads x r.toReg := by cases x <;> rfl

theorem moveReads_yEa (x : Xfer) (r : Reg5) : moveReads (.yEa x r) = xferReads x r.toReg := by cases x <;> rfl

/-! The moves of class I and II: the limited accumulator, a piece of a move, a register's write (R375 to R378). -/

section ReadsFirst
variable {m : ScaleMode} {s : State} (hm : s.scale = .ok m)
include hm

theorem runMove_xr (ee : XReg) (x : Xfer) (d : Acc) (f : YSel) :
    s.runMove (.xr ee x d f) =
      ((s.limited m (s.acc d)).moveEa .x x (.d ee.toDReg)).map (State.writeD f.toDReg (limit24 m (s.acc d))) := by
  rw [State.runMove, readLimited_ok hm]
  cases h : (s.limited m (s.acc d)).moveEa .x x (.d ee.toDReg) <;> simp only [h, Except.map]

theorem runMove_ry (d : Acc) (e : XSel) (ff : YReg) (x : Xfer) :
    s.runMove (.ry d e ff x) =
      ((s.limited m (s.acc d)).moveEa .y x (.d ff.toDReg)).map (State.writeD e.toDReg (limit24 m (s.acc d))) := by
  rw [State.runMove, readLimited_ok hm]
  cases h : (s.limited m (s.acc d)).moveEa .y x (.d ff.toDReg) <;> simp only [h, Except.map]

theorem runMove_xr2 (d : Acc) (ea : Ea) :
    s.runMove (.xr2 d ea) =
      ((s.limited m (s.acc d)).storeEa .x ea (limit24 m (s.acc d))).map (State.writeD d.toDReg s.dalu.x0) := by
  rw [State.runMove, readLimited_ok hm]
  cases h : (s.limited m (s.acc d)).storeEa .x ea (limit24 m (s.acc d)) <;> simp only [h, Except.map]

theorem runMove_ry2 (d : Acc) (ea : Ea) :
    s.runMove (.ry2 d ea) =
      ((s.limited m (s.acc d)).storeEa .y ea (limit24 m (s.acc d))).map (State.writeD d.toDReg s.dalu.y0) := by
  rw [State.runMove, readLimited_ok hm]
  cases h : (s.limited m (s.acc d)).storeEa .y ea (limit24 m (s.acc d)) <;> simp only [h, Except.map]

end ReadsFirst

theorem moveReads_xr (ee : XReg) (x : Xfer) (d : Acc) (f : YSel) :
    moveReads (.xr ee x d f) = d :: xferReads x (.d ee.toDReg) := by
  cases x <;> rfl

theorem moveReads_ry (d : Acc) (e : XSel) (ff : YReg) (x : Xfer) :
    moveReads (.ry d e ff x) = d :: xferReads x (.d ff.toDReg) := by
  cases x <;> rfl

/-- An address update alone (R371). -/
theorem updateMove_outcome {m : ScaleMode} {s : State} (hm : s.scale = .ok m) (mm : UMode) (r : BitVec 3) :
    MoveOutcome m [⟨mm.toAguMode, r⟩] [] s (s.runMove (.upd mm r)) := by
  have hstep {v : Addr} (hv : s.stepped mm.toAguMode r = .ok v) : s.runMove (.upd mm r) = .ok (s.setR r v) := by
    rw [State.runMove, hv]
  refine ⟨fun hd => ?_, fun u hu => ?_⟩
  · obtain ⟨v, hv⟩ := hd ⟨mm.toAguMode, r⟩ (List.mem_singleton_self _)
    exact ⟨_, hstep hv⟩
  · rw [State.runMove] at hu
    split at hu
    · cases hu
    · cases hu
      exact (LimiterReads.refl hm).flags.of_sr rfl

theorem runMove_outcome {m : ScaleMode} {s : State} (hm : s.scale = .ok m) (mv : ParMove) :
    MoveOutcome m (moveInds mv) (moveReads mv) s (s.runMove mv) := by
  have hnone := (LimiterReads.refl hm).flags
  have hlimited (d : Acc) : (s.limited m (s.acc d)).scale = .ok m := (scale_limited m (s.acc d) s).trans hm
  cases mv with
  | none => exact .of_ok rfl hnone
  | imm dst i => exact .of_ok rfl (hnone.of_sr (congrArg Ctl.sr (writeReg_ctl s dst _)))
  | reg src dst =>
    obtain ⟨v, t, hv, hreads⟩ := readReg_reads hm src
    have hmove : s.runMove (.reg src dst) = .ok (t.writeReg dst.toReg v) := by rw [State.runMove, hv]
    exact .of_ok hmove (hreads.flags.of_sr (congrArg Ctl.sr (writeReg_ctl t dst v)))
  | upd mm r => exact updateMove_outcome hm mm r
  | xEa x r =>
    rw [moveReads_xEa]
    exact moveEa_outcome hm .x x r
  | yEa x r =>
    rw [moveReads_yEa]
    exact moveEa_outcome hm .y x r
  | xAa w aa r =>
    cases w with
    | toReg => exact moveAt_outcome hm .x .toReg aa r
    | toMem => exact moveAt_outcome hm .x .toMem aa r
  | yAa w aa r =>
    cases w with
    | toReg => exact moveAt_outcome hm .y .toReg aa r
    | toMem => exact moveAt_outcome hm .y .toMem aa r
  | lEa w ea l => exact moveLongEa_outcome hm w ea l
  | lAa w aa l => exact moveLongAa_outcome hm w aa l
  | xr ee x d f =>
    rw [moveReads_xr, runMove_xr hm]
    exact beside_outcome hm _ _ (moveEa_outcome (hlimited d) .x x (.d ee.toDReg))
  | ry d e ff x =>
    rw [moveReads_ry, runMove_ry hm]
    exact beside_outcome hm _ _ (moveEa_outcome (hlimited d) .y x (.d ff.toDReg))
  | xr2 d ea =>
    rw [runMove_xr2 hm]
    exact beside_outcome hm _ _ (storeEa_outcome (hlimited d) .x ea _)
  | ry2 d ea =>
    rw [runMove_ry2 hm]
    exact beside_outcome hm _ _ (storeEa_outcome (hlimited d) .y ea _)
  | xy wx ee mx rx wy ff my ry => exact moveXY_outcome hm wx wy ee ff (otherBank_ne rx ry)

/-- In the default definition S takes up a bit at each read and is kept once set. -/
theorem foldl_family (m : ScaleMode) (s : State) (ds : List Acc) (b : Bool) :
    ds.foldl (fun b d => SBitFn.family.next b m (s.acc d)) b = (b || ds.any fun d => scaleBit m (s.acc d)) := by
  induction ds generalizing b with
  | nil => simp
  | cons d ds ih =>
    rw [List.foldl_cons, ih, List.any_cons, ← Bool.or_assoc]
    rfl

/-- S is a bit of SR only where the part has it. -/
theorem ccr_s_of_legal {s : State} (h : s.srLegal = true) : (s.plat.hasSBit && s.ccr.s) = s.ccr.s := by
  have h7 : s.plat.srMask.getLsbD 7 = s.plat.hasSBit := by
    simp only [Platform.srMask]
    cases s.plat.hasSBit <;> cases s.plat.hasDmBit <;> rfl
  have hs : s.ccr.s = s.ctl.sr.getLsbD 7 := rfl
  rw [hs, ← srLegal_iff.1 h, BitVec.getLsbD_and, h7]
  cases s.plat.hasSBit <;> simp

/-- Settles O15: `runMove_outcome` for the completion, S and L, and the frame of `Effect.runMove` for the other
flags. -/
theorem movesCompleteAndChangeOnlySAndL : Obligations.MovesCompleteAndChangeOnlySAndL := by
  intro mv m s hm
  obtain ⟨hcompletes, hflags⟩ := runMove_outcome hm mv
  refine ⟨hcompletes, fun u hs hu => ?_⟩
  obtain ⟨hl, hsbit⟩ := hflags u hu
  have hplat : u.plat = s.plat := (Effect.runMove hu).hidden.2.2.2.1
  have hmasked : u.ccr.s = (s.plat.hasSBit && (moveReads mv).foldl
      (fun b d => s.plat.sBitFn.next b m (s.acc d)) s.ccr.s) := by
    rw [← hsbit, ← hplat, ccr_s_of_legal (runMove_srLegal hu hs)]
  refine ⟨xor_and_eq_zero fun k hk => (Effect.runMove hu).status hs k (moveBits_subset mv k hk), hl, hmasked,
    fun hfamily => ?_⟩
  rw [hmasked, hfamily, foldl_family, Bool.and_or_distrib_left, ccr_s_of_legal hs]

end Sys2Proof.Machine
end

end
